-- ==== Sys2Proof/Config.lean ====
section
/-! DEFINITION. The sizes that spec/00_scope.md R7 fixes for this hardware.
The block leaves no value open that an instruction could produce (spec/93_implementation_defined.md part 1, last
paragraph), so there is no free value here: the parameters of R7 that stay open are operands (`POLY`) or fields of
State (`ENV.rxq`). -/

namespace Sys2Proof.Config

/-- `HDR_SIZE`, bytes (R7). -/
def hdrSize : Nat := 4

/-- `CRC_SIZE`, the trailer's bytes (R7). -/
def crcSize : Nat := 2

/-- Entries of `LUT` (R7, R25). -/
def lutSize : Nat := 256

/-- `PLD_CAP`, bytes (R7, R34). -/
def pldCap : Nat := 256

/-- `FRM_CAP`, bytes (R7, R41). -/
def frmCap : Nat := 262

/-- The payload size of the handshake frame, bytes (R7). -/
def hskSize : Nat := 32

/-- The number of registers that RD reads: numbers 0 to 14 (R47, R60). -/
def regCount : Nat := 15

end Sys2Proof.Config
end

