-- ==== Sys2Proof/Word.lean ====
section
/-! DEFINITION. The widths of the block's values (spec/00_scope.md R8: all values are unsigned). -/

namespace Sys2Proof

/-- One byte: a byte of a memory or of the transport. -/
abbrev Byte := BitVec 8

/-- A 16-bit value: a CRC, a checksum, a size, an entry of the lookup table. -/
abbrev Half := BitVec 16

/-- A 32-bit value: a command word, a response value, a header seen as one number. -/
abbrev Word := BitVec 32

end Sys2Proof
end

