-- ==== Sys2Proof/Syntax.lean ====
section
/-! DEFINITION. The instructions: one constructor per row of spec/opcode_table.json.
Every operand has exactly the width of its field (spec/30_encoding.md R86, R93), so an operand out of range cannot be
written. -/

namespace Sys2Proof

/-- The 21 commands of R89, and the four `WIREHDR` rows of R103.

A `wirehdr…` constructor is a packet header seen as the 32-bit value W of R93, its opcode in the constructor's name.
It is an encoding of the wire and names no command; what the command port does with such a word is R90's: it is
illegal (notes/assumptions/1.md). -/
inductive Instr where
  /-- LUTGEN poly (R115). -/
  | lutgen (poly : BitVec 16)
  /-- CRCINIT (R116). -/
  | crcinit
  /-- CRCB byte (R117). -/
  | crcb (b : BitVec 8)
  /-- LUTRD idx (R118). -/
  | lutrd (i : BitVec 8)
  /-- HDRMK op, len, ack, pn (R135). -/
  | hdrmk (op : BitVec 2) (len : BitVec 2) (ack : BitVec 1) (pn16 : BitVec 16)
  /-- HDRCHK (R136). -/
  | hdrchk
  /-- HDRPK (R137). -/
  | hdrpk
  /-- SETSZ cls (R146). -/
  | setsz (cls : BitVec 2)
  /-- PLDCLR (R147). -/
  | pldclr
  /-- PLDW idx, byte (R148). -/
  | pldw (idx : BitVec 8) (b : BitVec 8)
  /-- PLDRD idx (R149). -/
  | pldrd (idx : BitVec 8)
  /-- SER cap (R152). -/
  | ser (cap : BitVec 16)
  /-- DES (R158). -/
  | des
  /-- FRMCLR (R163). -/
  | frmclr
  /-- FRMB byte (R164). -/
  | frmb (b : BitVec 8)
  /-- FRMRD idx (R165). -/
  | frmrd (idx : BitVec 16)
  /-- TX (R176). -/
  | tx
  /-- RX (R177). -/
  | rx
  /-- HSK (R179). -/
  | hsk
  /-- SESSEND (R186). -/
  | sessend
  /-- RD r (R187). -/
  | rd (r : BitVec 8)
  /-- A header with opcode 0, CONNECT (R93, R94). -/
  | wirehdrConnect (len : BitVec 2) (ack : BitVec 1) (pn : BitVec 11) (ck : BitVec 16)
  /-- A header with opcode 1, DISCONNECT (R93, R94). -/
  | wirehdrDisconnect (len : BitVec 2) (ack : BitVec 1) (pn : BitVec 11) (ck : BitVec 16)
  /-- A header with opcode 2, DATA (R93, R94). -/
  | wirehdrData (len : BitVec 2) (ack : BitVec 1) (pn : BitVec 11) (ck : BitVec 16)
  /-- A header with opcode 3, ERROR (R93, R94). -/
  | wirehdrError (len : BitVec 2) (ack : BitVec 1) (pn : BitVec 11) (ck : BitVec 16)
  deriving DecidableEq, Repr

end Sys2Proof
end

