-- ==== Sys2Proof/WellFormed.lean ====
section
/-! DEFINITION. Which terms of Instr a command word can stand for.
The operands' widths are in the syntax, so one check is left: a CONNECT header whose first byte is an assigned command
code is read at the command port as that command (spec/30_encoding.md R91, R103), never as a header. -/

namespace Sys2Proof

/-- The 21 assigned command codes (R89). -/
def assignedCodes : List (BitVec 8) :=
  [0x01, 0x02, 0x03, 0x04, 0x10, 0x11, 0x12, 0x20, 0x21, 0x22, 0x23, 0x24, 0x25, 0x26, 0x27, 0x28,
   0x30, 0x31, 0x32, 0x33, 0x3F]

/-- The first byte of a CONNECT header on the wire (R93): opcode 0, then length, ack and packet_number[10:8]. -/
def connectByte0 (len : BitVec 2) (ack : BitVec 1) (pn : BitVec 11) : BitVec 8 :=
  (len.setWidth 8 <<< 4) ||| (ack.setWidth 8 <<< 3) ||| (pn.extractLsb' 8 3).setWidth 8

/-- The well-formed instructions: those that some 32-bit word decodes to. -/
def Instr.wellFormed : Instr → Bool
  | .lutgen _ | .crcinit | .crcb _ | .lutrd _ => true
  | .hdrmk _ _ _ _ | .hdrchk | .hdrpk => true
  | .setsz _ | .pldclr | .pldw _ _ | .pldrd _ | .ser _ | .des | .frmclr | .frmb _ | .frmrd _ => true
  | .tx | .rx | .hsk | .sessend | .rd _ => true
  | .wirehdrConnect len ack pn _ => !assignedCodes.contains (connectByte0 len ack pn)
  | .wirehdrDisconnect _ _ _ _ | .wirehdrData _ _ _ _ | .wirehdrError _ _ _ _ => true

end Sys2Proof
end

