-- ==== Sys2Proof/Decode.lean ====
section
/-! DEFINITION. Reading a command word, reading a wire header, and writing both (spec/30_encoding.md R85 to R94, R101,
R103). -/

namespace Sys2Proof

/-- Why a command word is not performed (R91). -/
inductive DecodeError where
  /-- Bits 31:24 are no assigned code (R90). -/
  | illegalCmd
  /-- The code is assigned and a reserved bit of its format is set (R87). -/
  | reservedBits
  deriving DecidableEq, Repr

/-- A command row of spec/opcode_table.json: `match`, `mask`, and the instruction its fields give. -/
structure CommandRow where
  pattern : Word
  mask : Word
  read : Word → Instr

/-- The command code of a word (R85). -/
def codeOf (cw : Word) : Byte := cw.extractLsb' 24 8

/-- `imm8`, bits 7:0 (formats B and IB, R86). -/
def imm8 (cw : Word) : BitVec 8 := cw.extractLsb' 0 8

/-- `imm16` and `pn16`, bits 15:0 (formats H and HD, R86). -/
def imm16 (cw : Word) : BitVec 16 := cw.extractLsb' 0 16

/-- `idx8`, bits 15:8 (format IB, R86). -/
def idx8 (cw : Word) : BitVec 8 := cw.extractLsb' 8 8

/-- The 21 command rows, in the table's order (R89, R103). The mask covers the code and the reserved bits of the
format (R87). -/
def commandRows : List CommandRow :=
  [ ⟨0x01000000#32, 0xFFFF0000#32, fun w => .lutgen (imm16 w)⟩,
    ⟨0x02000000#32, 0xFFFFFFFF#32, fun _ => .crcinit⟩,
    ⟨0x03000000#32, 0xFFFFFF00#32, fun w => .crcb (imm8 w)⟩,
    ⟨0x04000000#32, 0xFFFFFF00#32, fun w => .lutrd (imm8 w)⟩,
    ⟨0x10000000#32, 0xFFE00000#32,
      fun w => .hdrmk (w.extractLsb' 19 2) (w.extractLsb' 17 2) (w.extractLsb' 16 1) (imm16 w)⟩,
    ⟨0x11000000#32, 0xFFFFFFFF#32, fun _ => .hdrchk⟩,
    ⟨0x12000000#32, 0xFFFFFFFF#32, fun _ => .hdrpk⟩,
    ⟨0x20000000#32, 0xFFFFFFFC#32, fun w => .setsz (w.extractLsb' 0 2)⟩,
    ⟨0x21000000#32, 0xFFFFFFFF#32, fun _ => .pldclr⟩,
    ⟨0x22000000#32, 0xFFFF0000#32, fun w => .pldw (idx8 w) (imm8 w)⟩,
    ⟨0x23000000#32, 0xFFFFFF00#32, fun w => .pldrd (imm8 w)⟩,
    ⟨0x24000000#32, 0xFFFF0000#32, fun w => .ser (imm16 w)⟩,
    ⟨0x25000000#32, 0xFFFFFFFF#32, fun _ => .des⟩,
    ⟨0x26000000#32, 0xFFFFFFFF#32, fun _ => .frmclr⟩,
    ⟨0x27000000#32, 0xFFFFFF00#32, fun w => .frmb (imm8 w)⟩,
    ⟨0x28000000#32, 0xFFFF0000#32, fun w => .frmrd (imm16 w)⟩,
    ⟨0x30000000#32, 0xFFFFFFFF#32, fun _ => .tx⟩,
    ⟨0x31000000#32, 0xFFFFFFFF#32, fun _ => .rx⟩,
    ⟨0x32000000#32, 0xFFFFFFFF#32, fun _ => .hsk⟩,
    ⟨0x33000000#32, 0xFFFFFFFF#32, fun _ => .sessend⟩,
    ⟨0x3F000000#32, 0xFFFFFF00#32, fun w => .rd (imm8 w)⟩ ]

/-- The command decoder of R103, in the order of R91: the code, then the reserved bits, then the fields. -/
def decodeCommand (cw : Word) : Except DecodeError Instr :=
  match commandRows.find? (fun r => codeOf r.pattern == codeOf cw) with
  | none => .error .illegalCmd
  | some r => if cw &&& r.mask = r.pattern then .ok (r.read cw) else .error .reservedBits

/-- The header decoder of R103: the `WIREHDR` row that bits 31:30 select, and the other fields of R93. -/
def decodeHeader (w : Word) : Instr :=
  let len := w.extractLsb' 28 2
  let ack := w.extractLsb' 27 1
  let pn := w.extractLsb' 16 11
  let ck := w.extractLsb' 0 16
  match (w.extractLsb' 30 2).toNat with
  | 0 => .wirehdrConnect len ack pn ck
  | 1 => .wirehdrDisconnect len ack pn ck
  | 2 => .wirehdrData len ack pn ck
  | _ => .wirehdrError len ack pn ck

/-- The row of spec/opcode_table.json that a word presented at the command port is an instance of. A word whose code
is unassigned is an instance of a `WIREHDR` row only, and such an instruction is illegal when it is performed
(R90; notes/assumptions/1.md); a word with an assigned code and a reserved bit set is refused by name (R87). -/
def decode (cw : Word) : Except DecodeError Instr :=
  match decodeCommand cw with
  | .ok i => .ok i
  | .error .illegalCmd => .ok (decodeHeader cw)
  | .error .reservedBits => .error .reservedBits

/-- The 32-bit value of a header (R93): opcode 31:30, length 29:28, ack 27, packet number 26:16, checksum 15:0. -/
def headerWord (op len : BitVec 2) (ack : BitVec 1) (pn : BitVec 11) (ck : BitVec 16) : Word :=
  (op.setWidth 32 <<< 30) ||| (len.setWidth 32 <<< 28) ||| (ack.setWidth 32 <<< 27) ||| (pn.setWidth 32 <<< 16)
    ||| ck.setWidth 32

/-- The encoder: R101's column `cw`, and R93 for a header. -/
def encode : Instr → Word
  | .lutgen poly => 0x01000000#32 ||| poly.setWidth 32
  | .crcinit => 0x02000000#32
  | .crcb b => 0x03000000#32 ||| b.setWidth 32
  | .lutrd i => 0x04000000#32 ||| i.setWidth 32
  | .hdrmk op len ack pn16 =>
    0x10000000#32 ||| (op.setWidth 32 <<< 19) ||| (len.setWidth 32 <<< 17) ||| (ack.setWidth 32 <<< 16)
      ||| pn16.setWidth 32
  | .hdrchk => 0x11000000#32
  | .hdrpk => 0x12000000#32
  | .setsz cls => 0x20000000#32 ||| cls.setWidth 32
  | .pldclr => 0x21000000#32
  | .pldw idx b => 0x22000000#32 ||| (idx.setWidth 32 <<< 8) ||| b.setWidth 32
  | .pldrd idx => 0x23000000#32 ||| idx.setWidth 32
  | .ser cap => 0x24000000#32 ||| cap.setWidth 32
  | .des => 0x25000000#32
  | .frmclr => 0x26000000#32
  | .frmb b => 0x27000000#32 ||| b.setWidth 32
  | .frmrd idx => 0x28000000#32 ||| idx.setWidth 32
  | .tx => 0x30000000#32
  | .rx => 0x31000000#32
  | .hsk => 0x32000000#32
  | .sessend => 0x33000000#32
  | .rd r => 0x3F000000#32 ||| r.setWidth 32
  | .wirehdrConnect len ack pn ck => headerWord 0 len ack pn ck
  | .wirehdrDisconnect len ack pn ck => headerWord 1 len ack pn ck
  | .wirehdrData len ack pn ck => headerWord 2 len ack pn ck
  | .wirehdrError len ack pn ck => headerWord 3 len ack pn ck

/-- A command word from its bits, bit 0 the least significant; a command has one length, 32 bits, and bits above the
`nbits` given are 0 (R85). The word travels whole: no byte order is involved (R66, R85; notes/assumptions/2.md). -/
def wordOfBits (nbits w : Nat) : Word := BitVec.ofNat 32 (w % 2 ^ nbits)

/-- The instruction the decoder reads from an instruction whose bits are `w`. -/
def decodeTableWord (nbits w : Nat) : Option Instr :=
  match decode (wordOfBits nbits w) with
  | .ok i => some i
  | .error _ => none

end Sys2Proof
end

