-- ==== Sys2Proof/Machine/State.lean ====
section
/-! DEFINITION. What the machine holds, how it can stop, and the state after reset (spec/10_state.md, R52). -/

namespace Sys2Proof.Machine

/-- A memory of `w`-bit units as the list of the units that are not 0, with their indices, indices strictly rising:
an unlisted index reads 0, the reset value of PLD and FRM (R52). For bytes a unit is a `Host.Cell`. -/
abbrev Memory (w : Nat) := List (Nat × BitVec w)

/-- The status codes' names (spec/60_exceptions.md R203). -/
inductive Status where
  | ok
  | sizeSerCap | sizeDesShort | sizePldRange | sizeFrmFull
  | integCrc | integHdrchk
  | argIllegalCmd | argReservedBits | argIndex
  | optAckf | optPsize
  | stateNoLut | stateLutLocked | stateNoSize | stateSession
  deriving DecidableEq, Repr

/-- The error classes (R201, R202); `success` is the class of `OK` in R203's numbering. -/
inductive ErrorClass where
  | success | sizeError | integrityError | argumentError | protocolOptionError | stateError
  deriving DecidableEq, Repr

/-- A header value (R130): the five header registers as one tuple. -/
structure Header where
  op : BitVec 2
  len : BitVec 2
  ack : BitVec 1
  pn : BitVec 11
  ck : BitVec 16
  deriving DecidableEq, Repr

/-- A response of the block: status code and value (R85). -/
structure Response where
  st : BitVec 8
  val : BitVec 32
  deriving DecidableEq, Repr

/-- What may come next from outside the block (R22, R230; notes/assumptions/2.md, 3.md). -/
inductive HostEvent where
  /-- A command word of the host, performed to its end (R22). -/
  | command (cw : BitVec 32)
  /-- RESET between commands, or during a command that waits for a byte that never comes (R230, R232). -/
  | reset
  /-- A command word, and RESET during it: when the command has moved `moved` bytes over the transport, or all the bytes
  it moves if they are fewer, and before its response (R230, R232). -/
  | resetDuring (cw : BitVec 32) (moved : Nat)
  deriving DecidableEq, Repr

/-- The machine: the block (R21), the environment `ENV` (R70), and the model's own view of the command port. -/
structure State where
  /-- `LUT`, indices 0 to 255 (R25). -/
  lut : Memory 16
  /-- `POLY` (R26). -/
  poly : BitVec 16
  /-- `LUTV`, table valid (R27). -/
  lutv : Bool
  /-- `CRCACC` (R28). -/
  crcacc : BitVec 16
  /-- `H_OPCODE` (R29). -/
  hOpcode : BitVec 2
  /-- `H_LENGTH` (R30). -/
  hLength : BitVec 2
  /-- `H_ACK` (R31). -/
  hAck : BitVec 1
  /-- `H_PKTNUM` (R32). -/
  hPktnum : BitVec 11
  /-- `H_CHECKSUM` (R33). -/
  hChecksum : BitVec 16
  /-- `PLD`, indices 0 to 255 (R34). -/
  pld : Memory 8
  /-- `BUFSZ` (R35). -/
  bufsz : BitVec 16
  /-- `CRC16` (R36). -/
  crc16 : BitVec 16
  /-- `ACKF` (R37). -/
  ackf : BitVec 8
  /-- `NPKT` (R38). -/
  npkt : BitVec 32
  /-- `PSIZE` (R39). -/
  psize : BitVec 16
  /-- `FRM`, indices 0 to 261 (R41). -/
  frm : Memory 8
  /-- `FRMLEN` (R42). -/
  frmlen : BitVec 16
  /-- `SESS`: false AwaitingHandshake, true SessionActive (R43). -/
  sess : Bool
  /-- `LASTST` (R44). -/
  lastst : BitVec 8
  /-- `ENV.rxq`: the bytes the transport will deliver, next first (R70). -/
  rxq : List (BitVec 8)
  /-- `ENV.txlog`: the bytes sent so far, oldest first (R70). -/
  txlog : List (BitVec 8)
  /-- The model's own: the host's script, next event first (R22, R24, R230; notes/assumptions/2.md). -/
  inbox : List HostEvent
  /-- The model's own: the response to the latest event, `none` where it gave none (notes/assumptions/10.md). -/
  response : Option Response
  /-- The model's own: a command waits on the transport and will never respond (R215; notes/assumptions/4.md). -/
  waiting : Bool
  deriving DecidableEq, Repr

/-- Why the machine stops. No rule of the spec stops it: each constructor is an access outside a memory or table,
which R11 says never occurs, and which no state reached from reset makes (R50; notes/assumptions/11.md). All three are
safe: the model stops where the spec gives no behaviour. -/
inductive Fault where
  /-- An access at or above `PLD[256]`: PLDCLR, SER or DES while BUFSZ holds more than 256. Safe. -/
  | pldOutside
  /-- An access at or above `FRM[262]`: SER, DES, FRMB, TX or RX while BUFSZ or FRMLEN holds more than R50 allows. Safe. -/
  | frmOutside
  /-- A read of `ACKTAB` at or above index 8: RD of ACKPER while ACKF holds more than 7. Safe. -/
  | ackTabOutside
  deriving DecidableEq, Repr

/-- Instructions without a meaning. -/
inductive Refusal where
  /-- Raised by an arm of exec whose instruction has no meaning yet; no arm raises it now. Safe. -/
  | notModelled (mnemonic : String)
  deriving DecidableEq, Repr

/-- The outcome of a step or of one instruction. -/
abbrev Result := Host.Outcome State Fault Refusal

/-- The state right after RESET (R52), with an environment that delivers nothing, has taken nothing, and a host that
presents nothing (notes/assumptions/2.md, 6.md, 7.md, 8.md). -/
def State.reset : State where
  lut := []
  poly := 0
  lutv := false
  crcacc := 0
  hOpcode := 0
  hLength := 0
  hAck := 0
  hPktnum := 0
  hChecksum := 0
  pld := []
  bufsz := 0
  crc16 := 0
  ackf := 0
  npkt := 0
  psize := 0
  frm := []
  frmlen := 0
  sess := false
  lastst := 0
  rxq := []
  txlog := []
  inbox := []
  response := none
  waiting := false

end Sys2Proof.Machine
end

