-- ==== Sys2Proof/Machine/Operands.lean ====
section
/-! DEFINITION. The pure functions over operands and fields: byte order, the header's packing and checksum, sizes, the
acknowledgement table and the handshake options (spec/00_scope.md R10, R15). -/

namespace Sys2Proof.Machine

/-- `be16(v)`, most significant byte first (R10, R64). -/
def be16 (v : BitVec 16) : List (BitVec 8) := [v.extractLsb' 8 8, v.extractLsb' 0 8]

/-- `be_u16(b0, b1) = (b0 << 8) | b1` (R10). -/
def beU16 (b0 b1 : BitVec 8) : BitVec 16 := (b0.setWidth 16 <<< 8) ||| b1.setWidth 16

/-- `be_u32(b0, b1, b2, b3)` (R10). -/
def beU32 (b0 b1 b2 b3 : BitVec 8) : BitVec 32 :=
  (b0.setWidth 32 <<< 24) ||| (b1.setWidth 32 <<< 16) ||| (b2.setWidth 32 <<< 8) ||| b3.setWidth 32

/-- The low 11 bits of HDRMK's packet-number operand, "natural 11-bit masking" (R88, R135). -/
def packetNumber (pn16 : BitVec 16) : BitVec 11 := pn16.extractLsb' 0 11

/-- The payload size a class code names, `32 << cls` (R88, R94, R146). -/
def classSize (cls : BitVec 2) : BitVec 16 := 32#16 <<< cls.toNat

/-- `frame_len(B) = 4 + B + 2` (R96). -/
def frameLen (size : Nat) : Nat := Config.hdrSize + size + Config.crcSize

/-- `hdr_word` (R131): opcode 15:14, length 13:12, ack 11, packet number 10:0. -/
def hdrWord (op len : BitVec 2) (ack : BitVec 1) (pn : BitVec 11) : BitVec 16 :=
  (op.setWidth 16 <<< 14) ||| (len.setWidth 16 <<< 12) ||| (ack.setWidth 16 <<< 11) ||| pn.setWidth 16

/-- `hdr_checksum = not16(hdr_word)` (R131). -/
def hdrChecksum (op len : BitVec 2) (ack : BitVec 1) (pn : BitVec 11) : BitVec 16 := ~~~ (hdrWord op len ack pn)

/-- A header value is consistent when its checksum is `hdr_checksum` of its other fields (R131). -/
def headerConsistent (h : Header) : Bool := h.ck == hdrChecksum h.op h.len h.ack h.pn

/-- `hdr_pack` (R132): the four wire bytes, the checksum as given. -/
def hdrPack (h : Header) : List (BitVec 8) :=
  [ (h.op.setWidth 8 <<< 6) ||| (h.len.setWidth 8 <<< 4) ||| (h.ack.setWidth 8 <<< 3)
      ||| (h.pn.extractLsb' 8 3).setWidth 8,
    h.pn.extractLsb' 0 8,
    h.ck.extractLsb' 8 8,
    h.ck.extractLsb' 0 8 ]

/-- `hdr_unpack` (R133): it checks nothing. -/
def hdrUnpack (b0 b1 b2 b3 : BitVec 8) : Header where
  op := b0.extractLsb' 6 2
  len := b0.extractLsb' 4 2
  ack := b0.extractLsb' 3 1
  pn := ((b0.extractLsb' 0 3).setWidth 11 <<< 8) ||| b1.setWidth 11
  ck := beU16 b2 b3

/-- A byte sequence of four as one number; any other sequence gives 0, and no rule asks for it. -/
def beU32OfList : List (BitVec 8) → BitVec 32
  | [b0, b1, b2, b3] => beU32 b0 b1 b2 b3
  | _ => 0

/-- `ACKTAB` (R99): packets between acknowledgements. -/
def ackTab : List (BitVec 16) := [1, 8, 16, 32, 64, 128, 256, 512]

/-- `ACKPER = ACKTAB[ACKF]` (R40); `none` at an index the table does not have. -/
def ackPer (ackf : BitVec 8) : Option (BitVec 16) := ackTab[ackf.toNat]?

/-- The handshake options as received (R180). -/
structure Options where
  ackf : BitVec 8
  npkt : BitVec 32
  psize : BitVec 16
  deriving DecidableEq, Repr

/-- `opt_extract(p)` (R180), `p` given by its byte at each index. -/
def optExtract (p : Nat → BitVec 8) : Options where
  ackf := p 0
  npkt := beU32 (p 1) (p 2) (p 3) (p 4)
  psize := beU16 (p 5) (p 6)

/-- The four payload sizes (R7, R181, C4): a multiple of 32 that is none of them is not accepted. -/
def payloadSizes : List (BitVec 16) := [32, 64, 128, 256]

/-- `opt_valid` (R181): the cause of the first check that fails, `none` if both pass. -/
def optError (ackf : BitVec 8) (psize : BitVec 16) : Option Status :=
  if 7 < ackf.toNat then some .optAckf
  else if payloadSizes.contains psize then none
  else some .optPsize

end Sys2Proof.Machine
end

