-- ==== Sys2Proof/Machine/Flags.lean ====
section
/-! DEFINITION. The status codes and the registers' read views (spec/60_exceptions.md R203, spec/10_state.md R40, R45,
R47). The block has no arithmetic flags (R46). -/

namespace Sys2Proof.Machine

/-- The class of a status (R203). -/
def Status.errorClass : Status → ErrorClass
  | .ok => .success
  | .sizeSerCap | .sizeDesShort | .sizePldRange | .sizeFrmFull => .sizeError
  | .integCrc | .integHdrchk => .integrityError
  | .argIllegalCmd | .argReservedBits | .argIndex => .argumentError
  | .optAckf | .optPsize => .protocolOptionError
  | .stateNoLut | .stateLutLocked | .stateNoSize | .stateSession => .stateError

/-- The class nibble, `st[7:4]` (R203). -/
def ErrorClass.nibble : ErrorClass → BitVec 4
  | .success => 0
  | .sizeError => 1
  | .integrityError => 2
  | .argumentError => 3
  | .protocolOptionError => 4
  | .stateError => 5

/-- The cause within the class, `st[3:0]` (R203). -/
def Status.cause : Status → BitVec 4
  | .ok => 0
  | .sizeSerCap => 0
  | .sizeDesShort => 1
  | .sizePldRange => 2
  | .sizeFrmFull => 3
  | .integCrc => 0
  | .integHdrchk => 1
  | .argIllegalCmd => 0
  | .argReservedBits => 1
  | .argIndex => 2
  | .optAckf => 0
  | .optPsize => 1
  | .stateNoLut => 0
  | .stateLutLocked => 1
  | .stateNoSize => 2
  | .stateSession => 3

/-- The 8-bit status code: class nibble, then cause nibble (R203, D4). -/
def Status.code (c : Status) : BitVec 8 := c.errorClass.nibble ++ c.cause

/-- The status of a word that is not performed (R87, R90, R208). -/
def decodeStatus : DecodeError → Status
  | .illegalCmd => .argIllegalCmd
  | .reservedBits => .argReservedBits

/-- The `STATUS` view (R45): LASTST in bits 7:0, LUTV in bit 8, SESS in bit 9. -/
def statusView (s : State) : BitVec 32 :=
  s.lastst.setWidth 32 ||| ((BitVec.ofBool s.lutv).setWidth 32 <<< 8) ||| ((BitVec.ofBool s.sess).setWidth 32 <<< 9)

/-- The value of register `r`, zero-extended (R47); `none` for a number without a register, and for `ACKPER` at an
index `ACKTAB` does not have. -/
def registerValue (r : Nat) (s : State) : Option (BitVec 32) :=
  match r with
  | 0 => some (statusView s)
  | 1 => some (s.poly.setWidth 32)
  | 2 => some (s.crcacc.setWidth 32)
  | 3 => some (s.hOpcode.setWidth 32)
  | 4 => some (s.hLength.setWidth 32)
  | 5 => some (s.hAck.setWidth 32)
  | 6 => some (s.hPktnum.setWidth 32)
  | 7 => some (s.hChecksum.setWidth 32)
  | 8 => some (s.bufsz.setWidth 32)
  | 9 => some (s.crc16.setWidth 32)
  | 10 => some (s.ackf.setWidth 32)
  | 11 => some s.npkt
  | 12 => some (s.psize.setWidth 32)
  | 13 => some (s.frmlen.setWidth 32)
  | 14 => (ackPer s.ackf).map (·.setWidth 32)
  | _ => none

end Sys2Proof.Machine
end

