-- ==== Sys2Proof/Machine/Ops.lean ====
section
/-! DEFINITION. The named operations over memories and registers, the endings of a command (the block's form of taking
an exception), the transport, and RESET. -/

namespace Sys2Proof.Machine

/-! ### Memories (spec/00_scope.md R11, spec/20_memory.md R60) -/

/-- `M[a]`: an index the list does not hold reads 0. -/
def Memory.read {w : Nat} (m : Memory w) (a : Nat) : BitVec w :=
  match m with
  | [] => 0
  | (k, v) :: rest => if k = a then v else Memory.read rest a

/-- The memory without index `a`. -/
def Memory.erase {w : Nat} (m : Memory w) (a : Nat) : Memory w := m.filter (fun c => c.1 != a)

/-- The entry `(a, v)` put where the indices stay rising. -/
def Memory.insert {w : Nat} (m : Memory w) (a : Nat) (v : BitVec w) : Memory w :=
  match m with
  | [] => [(a, v)]
  | c :: rest => if c.1 < a then c :: Memory.insert rest a v else (a, v) :: c :: rest

/-- `M[a] <- v`: writing 0, what an unlisted index reads as, leaves no entry. -/
def Memory.write {w : Nat} (m : Memory w) (a : Nat) (v : BitVec w) : Memory w :=
  if v = 0 then Memory.erase m a else Memory.insert (Memory.erase m a) a v

/-- `MemWrite(M:a, len vs, vs)` (R11). -/
def Memory.writeSeq {w : Nat} (m : Memory w) (a : Nat) : List (BitVec w) → Memory w
  | [] => m
  | v :: vs => Memory.writeSeq (Memory.write m a v) (a + 1) vs

/-- `MemRead(M:a, n)` (R11). -/
def Memory.readSeq {w : Nat} (m : Memory w) (a : Nat) : Nat → List (BitVec w)
  | 0 => []
  | n + 1 => Memory.read m a :: Memory.readSeq m (a + 1) n

/-- The memory whose units at `a`, `a + 1`, … are the given ones and whose other units are 0. -/
def Memory.ofList {w : Nat} (a : Nat) : List (BitVec w) → Memory w
  | [] => []
  | v :: vs => if v = 0 then Memory.ofList (a + 1) vs else (a, v) :: Memory.ofList (a + 1) vs

/-- Indices rise strictly from above `lo`, and no entry is 0. -/
def Memory.risingFrom {w : Nat} (lo : Nat) : Memory w → Bool
  | [] => true
  | (k, v) :: rest => decide (lo ≤ k) && (v != 0) && Memory.risingFrom (k + 1) rest

/-- The canonical form: indices strictly rising, no entry equal to what an unlisted index reads as. -/
def Memory.wf {w : Nat} (m : Memory w) : Bool := Memory.risingFrom 0 m

/-- Every index lies below the memory's size. -/
def Memory.within {w : Nat} (cap : Nat) (m : Memory w) : Bool := m.all (fun c => decide (c.1 < cap))

/-! ### Register updates, one name for each group of registers that is written together -/

/-- The five header registers as a header value (R130). -/
def State.header (s : State) : Header := ⟨s.hOpcode, s.hLength, s.hAck, s.hPktnum, s.hChecksum⟩

/-- `LUT`, `POLY` and `LUTV`, as LUTGEN writes them (R48). -/
def State.setTable (s : State) (table : Memory 16) (poly : BitVec 16) : State :=
  { s with lut := table, poly := poly, lutv := true }

/-- `CRCACC <- c`. -/
def State.setCrcacc (s : State) (c : BitVec 16) : State := { s with crcacc := c }

/-- The five header registers, written together (spec/10_state.md section 4). -/
def State.setHeader (s : State) (h : Header) : State :=
  { s with hOpcode := h.op, hLength := h.len, hAck := h.ack, hPktnum := h.pn, hChecksum := h.ck }

/-- `PLD` as a whole. -/
def State.setPld (s : State) (m : Memory 8) : State := { s with pld := m }

/-- `BUFSZ <- v`. -/
def State.setBufsz (s : State) (v : BitVec 16) : State := { s with bufsz := v }

/-- `CRC16 <- c`. -/
def State.setCrc16 (s : State) (c : BitVec 16) : State := { s with crc16 := c }

/-- The three option registers, written together (R183). -/
def State.setOptions (s : State) (o : Options) : State :=
  { s with ackf := o.ackf, npkt := o.npkt, psize := o.psize }

/-- `FRM` as a whole. -/
def State.setFrm (s : State) (m : Memory 8) : State := { s with frm := m }

/-- `FRMLEN <- n`, keeping the low 16 bits (R9). -/
def State.setFrmlen (s : State) (n : Nat) : State := { s with frmlen := BitVec.ofNat 16 n }

/-- `SESS <- 1` (R183). -/
def State.startSession (s : State) : State := { s with sess := true }

/-- The Protocol Instance of R49, constructed anew: every register and memory of the group is 0 (R186). -/
def State.clearInstance (s : State) : State :=
  { s with
    hOpcode := 0, hLength := 0, hAck := 0, hPktnum := 0, hChecksum := 0, pld := [], bufsz := 0, crc16 := 0,
    ackf := 0, npkt := 0, psize := 0, frm := [], frmlen := 0, sess := false }

/-- What is left of the host's script. -/
def State.setInbox (s : State) (rest : List HostEvent) : State := { s with inbox := rest }

/-- Both directions of `ENV` (R70). -/
def State.setEnv (s : State) (rxq txlog : List (BitVec 8)) : State := { s with rxq := rxq, txlog := txlog }

/-- RESET (R230 to R232): the block's state is R52's, `ENV` is not touched, and a command in progress is abandoned
without a response. -/
def State.applyReset (s : State) : State :=
  { State.reset with rxq := s.rxq, txlog := s.txlog, inbox := s.inbox }

/-! ### The endings of a command (R12, R200): the shared operation that takes an exception, and the return beside it -/

/-- A response is given and LASTST takes its status code (R12, R44). -/
def State.finish (s : State) (c : Status) (v : BitVec 32) : State :=
  { s with lastst := c.code, response := some ⟨c.code, v⟩ }

/-- A response is given and LASTST keeps its value: RD's ending (R187). -/
def State.answer (s : State) (c : Status) (v : BitVec 32) : State :=
  { s with response := some ⟨c.code, v⟩ }

/-- `resp(OK, v)` (R12). -/
def respond (v : BitVec 32) (s : State) : Result := .next (s.finish .ok v)

/-- `raise E(CAUSE)` (R12): the status code of the cause and value 0. Nothing else is saved, masked or transferred, and
there is no return from it: the next command is accepted as if this one had not been given (R200, R204, R212, R213). -/
def raise (c : Status) (s : State) : Result := .next (s.finish c 0)

/-- `resp(OK, v)` in RD, which does not write LASTST (R187). -/
def respondQuietly (v : BitVec 32) (s : State) : Result := .next (s.answer .ok v)

/-- `raise` in RD, which does not write LASTST (R187). -/
def raiseQuietly (c : Status) (s : State) : Result := .next (s.answer c 0)

/-- The command waits for a byte that never comes (R71, R215): no response, no status, and no further command until
RESET. -/
def State.hang (s : State) : State := { s with response := none, waiting := true }

/-- The block accepts commands again: what a state needs for `withFetchWord`'s command to be performed. -/
def State.ready (s : State) : State := { s with waiting := false }

/-! ### The checks that commands share (R210) -/

/-- `if LUTV = 0 then raise StateError(STATE_NO_LUT)` (R27). -/
def requireTable (s : State) (next : Result) : Result := if s.lutv then next else raise .stateNoLut s

/-- `if BUFSZ = 0 then raise StateError(STATE_NO_SIZE)` (R145). -/
def requireSize (s : State) (next : Result) : Result := if s.bufsz = 0 then raise .stateNoSize s else next

/-- An access to `PLD[0..n)`: R11 says that no rule makes one outside (notes/assumptions/11.md). -/
def accessPld (n : Nat) (next : Result) : Result := if n ≤ Config.pldCap then next else .fault .pldOutside

/-- An access to `FRM[0..n)`: R11 says that no rule makes one outside (notes/assumptions/11.md). -/
def accessFrm (n : Nat) (next : Result) : Result := if n ≤ Config.frmCap then next else .fault .frmOutside

/-! ### The transport (R13, R71, R74) -/

/-- `send` of each byte in order. -/
def State.send (s : State) (bytes : List (BitVec 8)) : State := { s with txlog := s.txlog ++ bytes }

/-- `FRM[i] <- recv()` for i = 0 to n-1, as far as bytes arrive. -/
def State.receive (s : State) (n : Nat) : State :=
  { s with frm := Memory.writeSeq s.frm 0 (s.rxq.take n), rxq := s.rxq.drop n }

/-- Whether n bytes will arrive: if not, the command that waits for them never ends (R215). -/
def State.delivers (s : State) (n : Nat) : Bool := decide (n ≤ s.rxq.length)

/-! ### The next event from outside -/

/-- What the block takes up next, and the state in which it does. -/
inductive Fetched where
  /-- Nothing is presented, or the block waits on the transport and accepts no command (R178, R215). -/
  | idle
  /-- RESET, which is accepted at any time (R230). -/
  | reset (s : State)
  /-- A command word. -/
  | command (cw : BitVec 32) (s : State)
  /-- A command word, and RESET during the command (R230, R232). -/
  | resetDuring (cw : BitVec 32) (moved : Nat) (s : State)

/-- The next event of the host's script (R22; notes/assumptions/2.md, 3.md, 13.md). A waiting block accepts no command
word (R178), but it accepts RESET (R230), so of a command with RESET during it only the RESET is left. -/
def fetch (s : State) : Fetched :=
  match s.inbox with
  | [] => .idle
  | .reset :: rest => .reset (s.setInbox rest)
  | .command cw :: rest => if s.waiting then .idle else .command cw (s.setInbox rest)
  | .resetDuring cw moved :: rest =>
    if s.waiting then .reset (s.setInbox rest) else .resetDuring cw moved (s.setInbox rest)

end Sys2Proof.Machine
end

