-- ==== Sys2Proof/Machine/CrcArith.lean ====
section
/-! DEFINITION. The CRC-16 arithmetic (spec/40_crc.md section 1) and the frame it closes (spec/42_packet_codec.md R151). -/

namespace Sys2Proof.Machine

/-- One of the eight iterations of R111: shift left, and exclusive-or the polynomial if bit 15 was set. -/
def lutShift (poly c : BitVec 16) : BitVec 16 := if c.msb then (c <<< 1) ^^^ poly else c <<< 1

/-- `k` iterations of R111. -/
def lutShifts (poly : BitVec 16) : Nat → BitVec 16 → BitVec 16
  | 0, c => c
  | k + 1, c => lutShifts poly k (lutShift poly c)

/-- `lut_entry(poly, b)` (R111). -/
def lutEntry (poly : BitVec 16) (b : BitVec 8) : BitVec 16 := lutShifts poly 8 (b.setWidth 16 <<< 8)

/-- The table of a polynomial, entries 0 to 255 (R112). -/
def lutTable (poly : BitVec 16) : Memory 16 :=
  Memory.ofList 0 ((List.range Config.lutSize).map (fun b => lutEntry poly (BitVec.ofNat 8 b)))

/-- `crc_step(c, b)` over the table given (R113). -/
def crcStep (lut : Memory 16) (c : BitVec 16) (b : BitVec 8) : BitVec 16 :=
  (c <<< 8) ^^^ Memory.read lut (c.extractLsb' 8 8 ^^^ b).toNat

/-- `crc16(s)` over the table given (R114). -/
def crc16 (lut : Memory 16) (bytes : List (BitVec 8)) : BitVec 16 := bytes.foldl (crcStep lut) 0

/-- `frame_of(h, p, B)` (R151), `p[0..B)` given as a sequence. -/
def frameOf (lut : Memory 16) (h : Header) (payload : List (BitVec 8)) : List (BitVec 8) :=
  hdrPack h ++ payload ++ be16 (crc16 lut (hdrPack h ++ payload))

end Sys2Proof.Machine
end

