-- ==== Sys2Proof/Machine/Crc.lean ====
section
/-! DEFINITION. The CRC-16 engine's commands: LUTGEN, CRCINIT, CRCB, LUTRD (spec/40_crc.md). -/

namespace Sys2Proof.Machine

/-- LUTGEN (R115, R27): the table is generated once; all 256 entries are written in the one step. -/
def execLutgen (poly : BitVec 16) (s : State) : Result :=
  if s.lutv then raise .stateLutLocked s else respond 0 (s.setTable (lutTable poly) poly)

/-- CRCINIT (R116). -/
def execCrcinit (s : State) : Result := respond 0 (s.setCrcacc 0)

/-- CRCB (R117): the value answered is the new CRCACC. -/
def execCrcb (b : BitVec 8) (s : State) : Result :=
  requireTable s (respond ((crcStep s.lut s.crcacc b).setWidth 32) (s.setCrcacc (crcStep s.lut s.crcacc b)))

/-- LUTRD (R118). -/
def execLutrd (i : BitVec 8) (s : State) : Result :=
  requireTable s (respond ((Memory.read s.lut i.toNat).setWidth 32) s)

end Sys2Proof.Machine
end

