-- ==== Sys2Proof/Machine/Header.lean ====
section
/-! DEFINITION. The header bit-packer's commands: HDRMK, HDRCHK, HDRPK (spec/41_header.md). -/

namespace Sys2Proof.Machine

/-- HDRMK (R135): the checksum is computed from the masked packet number. -/
def execHdrmk (op len : BitVec 2) (ack : BitVec 1) (pn16 : BitVec 16) (s : State) : Result :=
  respond ((hdrChecksum op len ack (packetNumber pn16)).setWidth 32)
    (s.setHeader ⟨op, len, ack, packetNumber pn16, hdrChecksum op len ack (packetNumber pn16)⟩)

/-- HDRCHK (R136). -/
def execHdrchk (s : State) : Result :=
  if headerConsistent s.header then respond (s.hChecksum.setWidth 32) s else raise .integHdrchk s

/-- HDRPK (R137): the stored checksum is packed as it is. -/
def execHdrpk (s : State) : Result := respond (beU32OfList (hdrPack s.header)) s

end Sys2Proof.Machine
end

