-- ==== Sys2Proof/Machine/Codec.lean ====
section
/-! DEFINITION. The packet codec's commands: SETSZ, PLDCLR, PLDW, PLDRD, SER, DES, FRMCLR, FRMB, FRMRD
(spec/42_packet_codec.md). -/

namespace Sys2Proof.Machine

/-- SETSZ (R146): it touches no byte of PLD or FRM. -/
def execSetsz (cls : BitVec 2) (s : State) : Result :=
  respond ((classSize cls).setWidth 32) (s.setBufsz (classSize cls))

/-- PLDCLR (R147): only bytes below BUFSZ are written. -/
def execPldclr (s : State) : Result :=
  requireSize s (accessPld s.bufsz.toNat
    (respond 0 (s.setPld (Memory.writeSeq s.pld 0 (List.replicate s.bufsz.toNat 0)))))

/-- PLDW (R148). -/
def execPldw (idx b : BitVec 8) (s : State) : Result :=
  requireSize s
    (if s.bufsz.toNat ≤ idx.toNat then raise .sizePldRange s
     else respond 0 (s.setPld (Memory.write s.pld idx.toNat b)))

/-- PLDRD (R149): any index, stale bytes too. -/
def execPldrd (idx : BitVec 8) (s : State) : Result :=
  respond ((Memory.read s.pld idx.toNat).setWidth 32) s

/-- SER (R152): the frame written is `frame_of(H, PLD, B)`; H_CHECKSUM goes out as stored, CRC16 is refreshed. -/
def execSer (cap : BitVec 16) (s : State) : Result :=
  requireTable s (requireSize s
    (if cap.toNat < frameLen s.bufsz.toNat then raise .sizeSerCap s
     else accessPld s.bufsz.toNat (accessFrm (frameLen s.bufsz.toNat) (
       let payload := Memory.readSeq s.pld 0 s.bufsz.toNat
       let c := crc16 s.lut (hdrPack s.header ++ payload)
       respond (c.setWidth 32)
         (((s.setFrm (Memory.writeSeq s.frm 0 (frameOf s.lut s.header payload))).setFrmlen
           (frameLen s.bufsz.toNat)).setCrc16 c)))))

/-- The header in the first four bytes of FRM (R158). -/
def frameHeader (s : State) : Header :=
  hdrUnpack (Memory.read s.frm 0) (Memory.read s.frm 1) (Memory.read s.frm 2) (Memory.read s.frm 3)

/-- The commit of a deserialise with payload size `size` (R160): the header registers, `PLD[0..size)` and CRC16. -/
def commitFrame (size : Nat) (s : State) : State :=
  ((s.setHeader (frameHeader s)).setPld (Memory.writeSeq s.pld 0 (Memory.readSeq s.frm 4 size))).setCrc16
    (beU16 (Memory.read s.frm (size + 4)) (Memory.read s.frm (size + 5)))

/-- The two validations of a deserialise, CRC first (R159): the cause of the first that fails. -/
def frameError (size : Nat) (s : State) : Option Status :=
  if crc16 s.lut (Memory.readSeq s.frm 0 (frameLen size)) ≠ 0 then some .integCrc
  else if headerConsistent (frameHeader s) then none
  else some .integHdrchk

/-- DES (R158): on any failure nothing but LASTST is written; bytes of FRM beyond the frame are ignored. -/
def execDes (s : State) : Result :=
  requireTable s (requireSize s
    (if s.frmlen.toNat < frameLen s.bufsz.toNat then raise .sizeDesShort s
     else accessPld s.bufsz.toNat (accessFrm (frameLen s.bufsz.toNat) (
       match frameError s.bufsz.toNat s with
       | some c => raise c s
       | none => respond ((commitFrame s.bufsz.toNat s).crc16.setWidth 32) (commitFrame s.bufsz.toNat s)))))

/-- FRMCLR (R163): the bytes stay, the length is 0. -/
def execFrmclr (s : State) : Result := respond 0 (s.setFrmlen 0)

/-- FRMB (R164): the value answered is the new length. -/
def execFrmb (b : BitVec 8) (s : State) : Result :=
  if s.frmlen.toNat = Config.frmCap then raise .sizeFrmFull s
  else accessFrm (s.frmlen.toNat + 1)
    (respond (BitVec.ofNat 32 (s.frmlen.toNat + 1))
      ((s.setFrm (Memory.write s.frm s.frmlen.toNat b)).setFrmlen (s.frmlen.toNat + 1)))

/-- FRMRD (R165): any index below 262, stale bytes too. -/
def execFrmrd (idx : BitVec 16) (s : State) : Result :=
  if Config.frmCap ≤ idx.toNat then raise .argIndex s
  else respond ((Memory.read s.frm idx.toNat).setWidth 32) s

end Sys2Proof.Machine
end

