-- ==== Sys2Proof/Machine/Session.lean ====
section
/-! DEFINITION. The framer's and the session's commands: TX, RX, HSK, SESSEND, RD (spec/43_framer_session.md). -/

namespace Sys2Proof.Machine

/-- TX (R176): whatever the frame buffer holds is sent, in index order. -/
def execTx (s : State) : Result :=
  accessFrm s.frmlen.toNat
    (respond (s.frmlen.setWidth 32) (s.send (Memory.readSeq s.frm 0 s.frmlen.toNat)))

/-- RX (R177): exactly one frame of the size in force; if it does not arrive whole the command never ends (R215). -/
def execRx (s : State) : Result :=
  requireSize s (accessFrm (frameLen s.bufsz.toNat)
    (if s.delivers (frameLen s.bufsz.toNat) then
       respond (BitVec.ofNat 32 (frameLen s.bufsz.toNat))
         ((s.receive (frameLen s.bufsz.toNat)).setFrmlen (frameLen s.bufsz.toNat))
     else .next (s.receive (frameLen s.bufsz.toNat)).hang))

/-- HSK from step 4 on (R179), in the state the deserialise step left: the options are validated, then committed. -/
def acceptOptions (s : State) : Result :=
  let o := optExtract (Memory.read s.pld)
  match optError o.ackf o.psize with
  | some c => raise c s
  | none => respond (o.psize.setWidth 32) (((s.setOptions o).setBufsz o.psize).startSession)

/-- HSK from step 3 on (R179, R182), in the state with the 38 bytes received. -/
def acceptHandshake (s : State) : Result :=
  match frameError Config.hskSize s with
  | some c => raise c s
  | none => acceptOptions (commitFrame Config.hskSize s)

/-- HSK (R179, R184): the checks before any byte is taken, the size 32, the 38 bytes, then steps 3 to 5; what was
written before a `raise` stays. -/
def execHsk (s : State) : Result :=
  requireTable s
    (if s.sess then raise .stateSession s
     else
       let taken := (s.setBufsz (BitVec.ofNat 16 Config.hskSize)).receive (frameLen Config.hskSize)
       if s.delivers (frameLen Config.hskSize) then acceptHandshake (taken.setFrmlen (frameLen Config.hskSize))
       else .next taken.hang)

/-- SESSEND (R186): LUT, POLY, LUTV, CRCACC and ENV are kept. -/
def execSessend (s : State) : Result := respond 0 s.clearInstance

/-- RD (R187): the one command that does not write LASTST. -/
def execRd (r : BitVec 8) (s : State) : Result :=
  if Config.regCount ≤ r.toNat then raiseQuietly .argIndex s
  else match registerValue r.toNat s with
    | some v => respondQuietly v s
    | none => .fault .ackTabOutside

end Sys2Proof.Machine
end

