-- ==== Sys2Proof/Machine/Wire.lean ====
section
/-! DEFINITION. What the command port does with a word that is a wire header and no command (spec/30_encoding.md R90,
R103; notes/assumptions/1.md). The header as data is packed and unpacked by `hdrPack` and `hdrUnpack`
(Machine/Operands.lean), which HDRPK, SER, DES and HSK use. -/

namespace Sys2Proof.Machine

/-- A word whose code is unassigned is not performed, whatever its other bits are (R90). -/
def illegalWord (s : State) : Result := raise .argIllegalCmd s

/-- `WIREHDR.CONNECT` presented as a command word (R90, R93). -/
def execWirehdrConnect (_len : BitVec 2) (_ack : BitVec 1) (_pn : BitVec 11) (_ck : BitVec 16) (s : State) : Result :=
  illegalWord s

/-- `WIREHDR.DISCONNECT` presented as a command word (R90, R93). -/
def execWirehdrDisconnect (_len : BitVec 2) (_ack : BitVec 1) (_pn : BitVec 11) (_ck : BitVec 16) (s : State) : Result :=
  illegalWord s

/-- `WIREHDR.DATA` presented as a command word (R90, R93). -/
def execWirehdrData (_len : BitVec 2) (_ack : BitVec 1) (_pn : BitVec 11) (_ck : BitVec 16) (s : State) : Result :=
  illegalWord s

/-- `WIREHDR.ERROR` presented as a command word (R90, R93). -/
def execWirehdrError (_len : BitVec 2) (_ack : BitVec 1) (_pn : BitVec 11) (_ck : BitVec 16) (s : State) : Result :=
  illegalWord s

end Sys2Proof.Machine
end

