-- ==== Sys2Proof/Machine/Dispatch.lean ====
section
/-! DEFINITION. One arm per constructor of Instr: which meaning an instruction has. -/

namespace Sys2Proof.Machine

def exec (i : Instr) (s : State) : Host.Outcome State Fault Refusal :=
  match i with
  | .lutgen poly => Sys2Proof.Machine.execLutgen poly s
  | .crcinit => Sys2Proof.Machine.execCrcinit s
  | .crcb b => Sys2Proof.Machine.execCrcb b s
  | .lutrd idx => Sys2Proof.Machine.execLutrd idx s
  | .hdrmk op len ack pn16 => Sys2Proof.Machine.execHdrmk op len ack pn16 s
  | .hdrchk => Sys2Proof.Machine.execHdrchk s
  | .hdrpk => Sys2Proof.Machine.execHdrpk s
  | .setsz cls => Sys2Proof.Machine.execSetsz cls s
  | .pldclr => Sys2Proof.Machine.execPldclr s
  | .pldw idx b => Sys2Proof.Machine.execPldw idx b s
  | .pldrd idx => Sys2Proof.Machine.execPldrd idx s
  | .ser cap => Sys2Proof.Machine.execSer cap s
  | .des => Sys2Proof.Machine.execDes s
  | .frmclr => Sys2Proof.Machine.execFrmclr s
  | .frmb b => Sys2Proof.Machine.execFrmb b s
  | .frmrd idx => Sys2Proof.Machine.execFrmrd idx s
  | .tx => Sys2Proof.Machine.execTx s
  | .rx => Sys2Proof.Machine.execRx s
  | .hsk => Sys2Proof.Machine.execHsk s
  | .sessend => Sys2Proof.Machine.execSessend s
  | .rd r => Sys2Proof.Machine.execRd r s
  | .wirehdrConnect len ack pn ck => Sys2Proof.Machine.execWirehdrConnect len ack pn ck s
  | .wirehdrDisconnect len ack pn ck => Sys2Proof.Machine.execWirehdrDisconnect len ack pn ck s
  | .wirehdrData len ack pn ck => Sys2Proof.Machine.execWirehdrData len ack pn ck s
  | .wirehdrError len ack pn ck => Sys2Proof.Machine.execWirehdrError len ack pn ck s

end Sys2Proof.Machine
end

