-- ==== Sys2Proof/Machine/Present.lean ====
section
/-! DEFINITION. A command word at the command port: performed to its end, or abandoned by a RESET that comes during it
(spec/30_encoding.md R91, spec/70_reset_and_hazards.md R230, R232). -/

namespace Sys2Proof.Machine

/-- A command word presented to the block: decoded in the order of R91, then performed or refused with a status. -/
def present (cw : BitVec 32) (s : State) : Result :=
  match decode cw with
  | .ok i => exec i s
  | .error e => raise (decodeStatus e) s

/-- RESET during an instruction that has moved `moved` bytes over the transport, or all the bytes it moves if they are
fewer (R232; notes/assumptions/3.md). Up to then the instruction has seen no more than the first `moved` bytes of
`ENV.rxq`: those of them that it takes are gone and the others still come. At most the first `moved` bytes that it sends
are in `ENV.txlog`. Whatever it wrote in the block, the block's state is the reset state, and no response is given. -/
def abandon (i : Instr) (moved : Nat) (s : State) : Result :=
  match exec i (s.setEnv (s.rxq.take moved) s.txlog) with
  | .next t => .next (t.setEnv (t.rxq ++ s.rxq.drop moved) (t.txlog.take (s.txlog.length + moved))).applyReset
  | .fault r => .fault r
  | .refused r => .refused r

/-- A command word presented to the block, and RESET before the response: a word that is not performed moves no byte. -/
def presentAndReset (cw : BitVec 32) (moved : Nat) (s : State) : Result :=
  match decode cw with
  | .ok i => abandon i moved s
  | .error _ => .next s.applyReset

end Sys2Proof.Machine
end

