-- ==== Sys2Proof/Machine/Step.lean ====
section
/-! DEFINITION. One step of the machine: the next event of the host's script is taken up whole (spec/10_state.md R22). -/

namespace Sys2Proof.Machine

/-- One step: a command, RESET between commands or during one, or nothing (the host presents nothing, or the block waits
on the transport). -/
def step (s : State) : Host.Outcome State Fault Refusal :=
  match fetch s with
  | .idle => .next s
  | .reset s' => .next s'.applyReset
  | .command cw s' => present cw s'
  | .resetDuring cw moved s' => presentAndReset cw moved s'

/-- `s` with the word presented next, to a block that is not waiting (notes/assumptions/2.md). -/
def State.withFetchWord (s : State) (nbits w : Nat) : State :=
  (s.setInbox (.command (wordOfBits nbits w) :: s.inbox)).ready

end Sys2Proof.Machine
end

