-- ==== Sys2Proof/Machine/Pseudo.lean ====
section
/-! DEFINITION. The pseudo-commands of spec/30_encoding.md R102: each function of the source as the command sequence that
realises it, and what presenting a sequence does. -/

namespace Sys2Proof.Machine

/-- Commands presented one after another (R22): after a command that waits for ever no further one is presented
(R215), and nothing follows a fault or a refusal. That the sequence goes on after a command that ends with an error is
the model's choice: R102 gives the sequences and does not say what the host does then (notes/assumptions/16.md). -/
def execAll : List Instr → State → Result
  | [], s => .next s
  | i :: is, s =>
    match exec i s with
    | .next t => if t.waiting then .next t else execAll is t
    | .fault r => .fault r
    | .refused r => .refused r

/-- `generate_lut p`. -/
def pseudoGenerateLut (poly : BitVec 16) : List Instr := [.lutgen poly]

/-- `crc16 d0, …`. -/
def pseudoCrc16 (ds : List (BitVec 8)) : List Instr := .crcinit :: ds.map .crcb

/-- `header_create op, len, ack, pn`. -/
def pseudoHeaderCreate (op len : BitVec 2) (ack : BitVec 1) (pn : BitVec 16) : List Instr := [.hdrmk op len ack pn]

/-- `PLDW i, d0; PLDW i+1, d1; …`, where every index has a PLDW: `idx8` has 8 bits (R86), so there is none at 256 and
above, and data that reaches so far has no sequence. R102 bounds the data by BUFSZ and says nothing of longer data: that
there is none from 256 on, and no index is wrapped, is the model's choice (notes/assumptions/16.md). -/
def payloadWrites (i : Nat) : List (BitVec 8) → Option (List Instr)
  | [] => some []
  | d :: ds => if i < Config.pldCap then (payloadWrites (i + 1) ds).map (.pldw (BitVec.ofNat 8 i) d :: ·) else none

/-- `payload_create d0, …`, none for more than 256 bytes (notes/assumptions/16.md). For data of at most 256 bytes but
longer than BUFSZ the sequence is as here, and its PLDW at index BUFSZ raises `SIZE_PLD_RANGE` (R150). -/
def pseudoPayloadCreate (ds : List (BitVec 8)) : Option (List Instr) := (payloadWrites 0 ds).map (.pldclr :: ·)

/-- `packet_create op, len, ack, pn; d0, …`, none where `payload_create` has no sequence (notes/assumptions/16.md). -/
def pseudoPacketCreate (op len : BitVec 2) (ack : BitVec 1) (pn : BitVec 16) (ds : List (BitVec 8)) : Option (List Instr) :=
  (pseudoPayloadCreate ds).map (pseudoHeaderCreate op len ack pn ++ ·)

/-- `serialize cls, cap`. -/
def pseudoSerialize (cls : BitVec 2) (cap : BitVec 16) : List Instr := [.setsz cls, .ser cap]

/-- `deserialize b0, …`. -/
def pseudoDeserialize (bs : List (BitVec 8)) : List Instr := [.frmclr] ++ bs.map .frmb ++ [.des]

/-- `send_packet`. -/
def pseudoSendPacket : List Instr := [.ser 262, .tx]

/-- `recv_packet`. -/
def pseudoRecvPacket : List Instr := [.rx, .des]

/-- `handshake`. -/
def pseudoHandshake : List Instr := [.hsk]

end Sys2Proof.Machine
end

