-- ==== Sys2Proof/Safety.lean ====
section
/-! DEFINITION. The terms in which claims about the machine are stated: what a command left unchanged, how it ended, and
which states and runs are good. -/

namespace Sys2Proof.Machine

/-! ### What a step left unchanged -/

/-- The pieces of State. -/
inductive StateItem where
  | lut | poly | lutv | crcacc
  | hOpcode | hLength | hAck | hPktnum | hChecksum
  | pld | bufsz | crc16 | ackf | npkt | psize | frm | frmlen
  | sess | lastst
  | rxq | txlog | inbox | response | waiting
  deriving DecidableEq, Repr

/-- A piece of state reads the same in two states; a memory, at every index. -/
def Unchanged : StateItem → State → State → Prop
  | .lut, s, t => ∀ a, Memory.read t.lut a = Memory.read s.lut a
  | .poly, s, t => t.poly = s.poly
  | .lutv, s, t => t.lutv = s.lutv
  | .crcacc, s, t => t.crcacc = s.crcacc
  | .hOpcode, s, t => t.hOpcode = s.hOpcode
  | .hLength, s, t => t.hLength = s.hLength
  | .hAck, s, t => t.hAck = s.hAck
  | .hPktnum, s, t => t.hPktnum = s.hPktnum
  | .hChecksum, s, t => t.hChecksum = s.hChecksum
  | .pld, s, t => ∀ a, Memory.read t.pld a = Memory.read s.pld a
  | .bufsz, s, t => t.bufsz = s.bufsz
  | .crc16, s, t => t.crc16 = s.crc16
  | .ackf, s, t => t.ackf = s.ackf
  | .npkt, s, t => t.npkt = s.npkt
  | .psize, s, t => t.psize = s.psize
  | .frm, s, t => ∀ a, Memory.read t.frm a = Memory.read s.frm a
  | .frmlen, s, t => t.frmlen = s.frmlen
  | .sess, s, t => t.sess = s.sess
  | .lastst, s, t => t.lastst = s.lastst
  | .rxq, s, t => t.rxq = s.rxq
  | .txlog, s, t => t.txlog = s.txlog
  | .inbox, s, t => t.inbox = s.inbox
  | .response, s, t => t.response = s.response
  | .waiting, s, t => t.waiting = s.waiting

/-- Everything but the listed pieces is unchanged from `s` to `t`. -/
def KeepsAllBut (written : List StateItem) (s t : State) : Prop := ∀ x, x ∉ written → Unchanged x s t

/-- The five header registers. -/
def headerItems : List StateItem := [.hOpcode, .hLength, .hAck, .hPktnum, .hChecksum]

/-- What an ending writes (R12). -/
def endingItems : List StateItem := [.lastst, .response]

/-- The write sets of spec/10_state.md R48, with the environment's part and, where a command can wait, the model's own
`waiting`. -/
def writeSet : Instr → List StateItem
  | .lutgen _ => [.lut, .poly, .lutv]
  | .crcinit => [.crcacc]
  | .crcb _ => [.crcacc]
  | .lutrd _ => []
  | .hdrmk _ _ _ _ => headerItems
  | .hdrchk => []
  | .hdrpk => []
  | .setsz _ => [.bufsz]
  | .pldclr => [.pld]
  | .pldw _ _ => [.pld]
  | .pldrd _ => []
  | .ser _ => [.frm, .frmlen, .crc16]
  | .des => headerItems ++ [.pld, .crc16]
  | .frmclr => [.frmlen]
  | .frmb _ => [.frm, .frmlen]
  | .frmrd _ => []
  | .tx => [.txlog]
  | .rx => [.frm, .frmlen, .rxq, .waiting]
  | .hsk => [.bufsz, .frm, .frmlen] ++ headerItems ++ [.pld, .crc16, .ackf, .npkt, .psize, .sess, .rxq, .waiting]
  | .sessend => headerItems ++ [.pld, .bufsz, .crc16, .ackf, .npkt, .psize, .frm, .frmlen, .sess]
  | .rd _ => []
  | .wirehdrConnect _ _ _ _ => []
  | .wirehdrDisconnect _ _ _ _ => []
  | .wirehdrData _ _ _ _ => []
  | .wirehdrError _ _ _ _ => []

/-- What a command writes at its ending: RD does not write LASTST (R44, R187). -/
def endingSet : Instr → List StateItem
  | .rd _ => [.response]
  | .lutgen _ | .crcinit | .crcb _ | .lutrd _ => endingItems
  | .hdrmk _ _ _ _ | .hdrchk | .hdrpk => endingItems
  | .setsz _ | .pldclr | .pldw _ _ | .pldrd _ | .ser _ | .des | .frmclr | .frmb _ | .frmrd _ => endingItems
  | .tx | .rx | .hsk | .sessend => endingItems
  | .wirehdrConnect _ _ _ _ | .wirehdrDisconnect _ _ _ _ | .wirehdrData _ _ _ _ | .wirehdrError _ _ _ _ => endingItems

/-- The error codes a command can end with (spec/60_exceptions.md R211); a header word at the command port is an
illegal command (R90). -/
def errorCodes : Instr → List (BitVec 8)
  | .lutgen _ => [0x51]
  | .crcinit => []
  | .crcb _ => [0x50]
  | .lutrd _ => [0x50]
  | .hdrmk _ _ _ _ => []
  | .hdrchk => [0x21]
  | .hdrpk => []
  | .setsz _ => []
  | .pldclr => [0x52]
  | .pldw _ _ => [0x52, 0x12]
  | .pldrd _ => []
  | .ser _ => [0x50, 0x52, 0x10]
  | .des => [0x50, 0x52, 0x11, 0x20, 0x21]
  | .frmclr => []
  | .frmb _ => [0x13]
  | .frmrd _ => [0x32]
  | .tx => []
  | .rx => [0x52]
  | .hsk => [0x50, 0x53, 0x20, 0x21, 0x40, 0x41]
  | .sessend => []
  | .rd _ => [0x32]
  | .wirehdrConnect _ _ _ _ => [0x30]
  | .wirehdrDisconnect _ _ _ _ => [0x30]
  | .wirehdrData _ _ _ _ => [0x30]
  | .wirehdrError _ _ _ _ => [0x30]

/-! ### How a command ended -/

/-- The response is `(st, val)` and LASTST holds `st` (R12, R44). -/
def Ended (t : State) (st : BitVec 8) (val : BitVec 32) : Prop := t.response = some ⟨st, val⟩ ∧ t.lastst = st

/-- The instruction goes on to a state that answers the error `st` and value 0 and differs in nothing else but LASTST
(R200). -/
def RaisesOnly (i : Instr) (s : State) (st : BitVec 8) : Prop :=
  ∃ t, exec i s = .next t ∧ Ended t st 0 ∧ KeepsAllBut endingItems s t

/-! ### Good states and runs -/

/-- The step neither faults nor refuses. -/
def GoesOn (r : Result) : Prop := ∃ t, r = .next t

/-- `LUT` is the table of the polynomial in `POLY` (R50 item 6). -/
def TableOfPoly (s : State) : Prop := ∀ b : BitVec 8, Memory.read s.lut b.toNat = lutEntry s.poly b

/-- The header registers are consistent (R131). -/
abbrev HeaderRegistersConsistent (s : State) : Prop := headerConsistent s.header = true

/-- `len_agrees` (R166): a duty of the host, which no command checks. -/
abbrev LenAgrees (s : State) : Prop := s.bufsz = classSize s.hLength

/-- The invariants of spec/10_state.md R50, item by item, and the memories' form. -/
structure Invariant (s : State) : Prop where
  /-- R50 item 1. -/
  bufsz_legal : s.bufsz ∈ [0, 32, 64, 128, 256]
  /-- R50 item 2. -/
  frmlen_le : s.frmlen.toNat ≤ 262
  /-- R50 item 3. -/
  ackf_le : s.ackf.toNat ≤ 7
  /-- R50 item 4. -/
  psize_legal : s.psize ∈ [0, 32, 64, 128, 256]
  /-- R50 item 5. -/
  pktnum_lt : s.hPktnum.toNat < 2048
  /-- R50 item 6. -/
  table : s.lutv = true → TableOfPoly s
  /-- R50 item 7. -/
  session : s.sess = true → s.lutv = true ∧ s.psize ∈ [32, 64, 128, 256] ∧ s.ackf.toNat ≤ 7
  /-- R50 item 8. -/
  no_session : s.sess = false → s.ackf = 0 ∧ s.npkt = 0 ∧ s.psize = 0
  /-- LUT is in canonical form with indices 0 to 255 (R60). -/
  lut_form : Memory.wf s.lut = true ∧ Memory.within 256 s.lut = true
  /-- PLD is in canonical form with indices 0 to 255 (R60). -/
  pld_form : Memory.wf s.pld = true ∧ Memory.within 256 s.pld = true
  /-- FRM is in canonical form with indices 0 to 261 (R60). -/
  frm_form : Memory.wf s.frm = true ∧ Memory.within 262 s.frm = true

end Sys2Proof.Machine
end

