-- ==== Sys2Proof/Certificates/Slice0/Obligations.lean ====
section
/-! DEFINITION. The statements for the provers, each a `def Obligations.<Name> : Prop`.
Status codes, masks and command words are written as numbers from the spec, not by the model's own names, so that a
wrong code in the model makes a statement false. Memory is spoken of through `Memory.read`, the read of one unit. -/

open Sys2Proof Sys2Proof.Machine

/-! ### Encodings -/

/-- Words written out from spec/30_encoding.md R101 decode to the instructions they stand for. The seventh is a packet
header written out from R93: that the command port reads a word with an unassigned code as the header row is the model's
reading (notes/assumptions/1.md), and performing it raises the 0x30 of R91 (`HeaderWordsAreIllegalCommands`). -/
def Obligations.ListedWordsDecode : Prop :=
  decode 0x01001021#32 = .ok (.lutgen 0x1021) ∧
  decode 0x100B0001#32 = .ok (.hdrmk 1 1 1 1) ∧
  decode 0x22001F5A#32 = .ok (.pldw 31 0x5A) ∧
  decode 0x24000026#32 = .ok (.ser 38) ∧
  decode 0x32000000#32 = .ok .hsk ∧
  decode 0x3F00000E#32 = .ok (.rd 14) ∧
  decode 0x9005_6FFA#32 = .ok (.wirehdrData 1 0 5 0x6FFA)

/-- R22, R91: a presented word that decodes to `i` is performed: the step is `exec i`, the word taken off the script. -/
def Obligations.StepRunsTheDecodedInstruction : Prop :=
  ∀ (s : State) (cw : BitVec 32) (rest : List HostEvent) (i : Instr),
    s.inbox = .command cw :: rest → s.waiting = false → decode cw = .ok i →
    step s = exec i { s with inbox := rest }

/-- R90: a word whose code is none of the 21 ends with 0x30, whatever its low 24 bits are, and is not performed. -/
def Obligations.UnassignedCodesAreIllegal : Prop :=
  ∀ (s : State) (cw : BitVec 32) (rest : List HostEvent),
    s.inbox = .command cw :: rest → s.waiting = false →
    (cw >>> 24) ∉ [0x01#32, 0x02, 0x03, 0x04, 0x10, 0x11, 0x12, 0x20, 0x21, 0x22, 0x23, 0x24, 0x25, 0x26, 0x27, 0x28,
      0x30, 0x31, 0x32, 0x33, 0x3F] →
    ∃ t, step s = .next t ∧ Ended t 0x30 0 ∧ t.inbox = rest ∧ KeepsAllBut [.lastst, .response, .inbox] s t

/-- R87, R208: a word with an assigned code and a reserved operand bit set ends with 0x31 and is not performed; the
pairs are the code and the reserved bits of its format (R86, R87, R89). -/
def Obligations.ReservedBitsAreRefused : Prop :=
  ∀ (s : State) (cw : BitVec 32) (rest : List HostEvent),
    s.inbox = .command cw :: rest → s.waiting = false →
    (∃ p ∈ [(0x01#32, 0xFF0000#32), (0x02, 0xFFFFFF), (0x03, 0xFFFF00), (0x04, 0xFFFF00), (0x10, 0xE00000),
        (0x11, 0xFFFFFF), (0x12, 0xFFFFFF), (0x20, 0xFFFFFC), (0x21, 0xFFFFFF), (0x22, 0xFF0000), (0x23, 0xFFFF00),
        (0x24, 0xFF0000), (0x25, 0xFFFFFF), (0x26, 0xFFFFFF), (0x27, 0xFFFF00), (0x28, 0xFF0000), (0x30, 0xFFFFFF),
        (0x31, 0xFFFFFF), (0x32, 0xFFFFFF), (0x33, 0xFFFFFF), (0x3F, 0xFFFF00)],
      cw >>> 24 = p.1 ∧ cw &&& p.2 ≠ 0) →
    ∃ t, step s = .next t ∧ Ended t 0x31 0 ∧ t.inbox = rest ∧ KeepsAllBut [.lastst, .response, .inbox] s t

/-- R103: the command decoder accepts a word exactly when `cw & mask = match` for a row of the opcode table; a command
read from a word carries every bit of it; every 32-bit header value is read by the header decoder without loss. The
pairs are `match` and `mask` of the table's 21 command rows. -/
def Obligations.CommandDecoderFollowsTheTable : Prop :=
  (∀ cw : BitVec 32,
    (∃ i, decodeCommand cw = .ok i) ↔
    ∃ r ∈ [(0x01000000#32, 0xFFFF0000#32), (0x02000000, 0xFFFFFFFF), (0x03000000, 0xFFFFFF00), (0x04000000, 0xFFFFFF00),
        (0x10000000, 0xFFE00000), (0x11000000, 0xFFFFFFFF), (0x12000000, 0xFFFFFFFF), (0x20000000, 0xFFFFFFFC),
        (0x21000000, 0xFFFFFFFF), (0x22000000, 0xFFFF0000), (0x23000000, 0xFFFFFF00), (0x24000000, 0xFFFF0000),
        (0x25000000, 0xFFFFFFFF), (0x26000000, 0xFFFFFFFF), (0x27000000, 0xFFFFFF00), (0x28000000, 0xFFFF0000),
        (0x30000000, 0xFFFFFFFF), (0x31000000, 0xFFFFFFFF), (0x32000000, 0xFFFFFFFF), (0x33000000, 0xFFFFFFFF),
        (0x3F000000, 0xFFFFFF00)],
      cw &&& r.2 = r.1) ∧
  (∀ (cw : BitVec 32) (i : Instr), decodeCommand cw = .ok i → encode i = cw) ∧
  (∀ w : BitVec 32, encode (decodeHeader w) = w)

/-- Decoding the encoding of any well-formed instruction gives it back, with every operand at every value. For the four
header rows this rests on the model's reading of a word with an unassigned code as a header (notes/assumptions/1.md;
performing it raises 0x30, R91); a CONNECT header whose first byte is an assigned code is not well-formed, being read as
that command. -/
def Obligations.DecodeOfEncode : Prop :=
  ∀ i : Instr, i.wellFormed = true → decode (encode i) = .ok i

/-- Every word that decodes is the encoding of what it decodes to, and that is well-formed: no word has two readings
and no bit is dropped. For words with an unassigned code it rests on notes/assumptions/1.md. -/
def Obligations.EncodeOfDecode : Prop :=
  ∀ (cw : BitVec 32) (i : Instr), decode cw = .ok i → encode i = cw ∧ i.wellFormed = true

/-- R93, R94: the four header rows are the four opcode values, and a header's 32-bit value is its four packed bytes,
the first most significant. -/
def Obligations.HeaderRowsArePackedHeaders : Prop :=
  ∀ (len : BitVec 2) (ack : BitVec 1) (pn : BitVec 11) (ck : BitVec 16),
    encode (.wirehdrConnect len ack pn ck) = beU32OfList (hdrPack ⟨0, len, ack, pn, ck⟩) ∧
    encode (.wirehdrDisconnect len ack pn ck) = beU32OfList (hdrPack ⟨1, len, ack, pn, ck⟩) ∧
    encode (.wirehdrData len ack pn ck) = beU32OfList (hdrPack ⟨2, len, ack, pn, ck⟩) ∧
    encode (.wirehdrError len ack pn ck) = beU32OfList (hdrPack ⟨3, len, ack, pn, ck⟩)

/-! ### The arithmetic -/

/-- R112: the table of every polynomial, entry by entry; entry 0 is 0, entry 1 is the polynomial, and the table is
linear over exclusive-or. -/
def Obligations.TableOfAPolynomial : Prop :=
  ∀ poly : BitVec 16,
    (∀ b : BitVec 8, Memory.read (lutTable poly) b.toNat = lutEntry poly b) ∧
    lutEntry poly 0 = 0 ∧ lutEntry poly 1 = poly ∧
    (∀ a b : BitVec 8, lutEntry poly (a ^^^ b) = lutEntry poly a ^^^ lutEntry poly b)

/-- R119, the self-verification law, for every polynomial: a sequence followed by its own CRC folds to 0; and its
converse fails: two sequences of one length both fold to 0. -/
def Obligations.CrcOfSequenceWithItsCrcIsZero : Prop :=
  ∀ poly : BitVec 16,
    (∀ d : List (BitVec 8), crc16 (lutTable poly) (d ++ be16 (crc16 (lutTable poly) d)) = 0) ∧
    (∃ d e : List (BitVec 8), d ≠ e ∧ d.length = e.length ∧ crc16 (lutTable poly) d = 0 ∧ crc16 (lutTable poly) e = 0)

/-- R123 items 1 and 2: zero bytes in front do not change the CRC, and an all-zero frame of any length has residual 0. -/
def Obligations.LeadingZerosAreNotSeen : Prop :=
  ∀ (poly : BitVec 16) (k : Nat) (d : List (BitVec 8)),
    crc16 (lutTable poly) (List.replicate k 0 ++ d) = crc16 (lutTable poly) d ∧
    crc16 (lutTable poly) (List.replicate k 0) = 0

/-- The two trailer bytes that give residual 0 are determined by the bytes before them, for every polynomial with an
x^0 term. (For the polynomial 0 every trailer does: notes/assumptions/15.md.) -/
def Obligations.TrailerIsTheCrcForOddPolynomials : Prop :=
  ∀ (poly : BitVec 16) (d : List (BitVec 8)) (hi lo : BitVec 8), poly.getLsbD 0 = true →
    crc16 (lutTable poly) (d ++ [hi, lo]) = 0 → beU16 hi lo = crc16 (lutTable poly) d

/-- R134: pack and unpack are inverse bijections between header values and 4-byte sequences. -/
def Obligations.HeaderPackAndUnpackAreInverse : Prop :=
  (∀ h : Header, ∃ b0 b1 b2 b3, hdrPack h = [b0, b1, b2, b3] ∧ hdrUnpack b0 b1 b2 b3 = h) ∧
  (∀ b0 b1 b2 b3 : BitVec 8, hdrPack (hdrUnpack b0 b1 b2 b3) = [b0, b1, b2, b3])

/-- R131: the fields of the header word do not overlap, and a header is consistent exactly when its word and its
checksum are complements. -/
def Obligations.HeaderChecksumIsTheComplement : Prop :=
  ∀ h : Header,
    (hdrWord h.op h.len h.ack h.pn).extractLsb' 14 2 = h.op ∧
    (hdrWord h.op h.len h.ack h.pn).extractLsb' 12 2 = h.len ∧
    (hdrWord h.op h.len h.ack h.pn).extractLsb' 11 1 = h.ack ∧
    (hdrWord h.op h.len h.ack h.pn).extractLsb' 0 11 = h.pn ∧
    hdrChecksum h.op h.len h.ack h.pn = 0xFFFF#16 - hdrWord h.op h.len h.ack h.pn ∧
    (headerConsistent h = true ↔ h.ck = hdrChecksum h.op h.len h.ack h.pn) ∧
    (headerConsistent h = true ↔ hdrWord h.op h.len h.ack h.pn ^^^ h.ck = 0xFFFF)

/-- The two option checks of R181 in their order, over every received pair; the causes are the codes 0x40 and 0x41. -/
def Obligations.OptionChecksInOrder : Prop :=
  ∀ (ackf : BitVec 8) (psize : BitVec 16),
    (8 ≤ ackf.toNat → (optError ackf psize).map Status.code = some 0x40) ∧
    (ackf.toNat ≤ 7 → psize.toNat ∉ [32, 64, 128, 256] → (optError ackf psize).map Status.code = some 0x41) ∧
    (ackf.toNat ≤ 7 → psize.toNat ∈ [32, 64, 128, 256] → optError ackf psize = none)

/-! ### CRC engine commands -/

/-- R115, LUTGEN. -/
def Obligations.LutgenFillsTheTableOnce : Prop :=
  (∀ poly : BitVec 16, decode (0x01000000#32 ||| poly.setWidth 32) = .ok (.lutgen poly)) ∧
  (∀ poly s, s.lutv = true → RaisesOnly (.lutgen poly) s 0x51) ∧
  (∀ poly s, s.lutv = false → ∃ t, exec (.lutgen poly) s = .next t ∧
    (∀ b : BitVec 8, Memory.read t.lut b.toNat = lutEntry poly b) ∧ t.poly = poly ∧ t.lutv = true ∧ Ended t 0x00 0 ∧
    KeepsAllBut [.lut, .poly, .lutv, .lastst, .response] s t)

/-- R116, CRCINIT. -/
def Obligations.CrcinitClearsTheAccumulator : Prop :=
  decode 0x02000000#32 = .ok .crcinit ∧
  ∀ s, ∃ t, exec .crcinit s = .next t ∧ t.crcacc = 0 ∧ Ended t 0x00 0 ∧
    KeepsAllBut [.crcacc, .lastst, .response] s t

/-- R117, CRCB, its fold step written out from R113. -/
def Obligations.CrcbFoldsOneByte : Prop :=
  (∀ b : BitVec 8, decode (0x03000000#32 ||| b.setWidth 32) = .ok (.crcb b)) ∧
  (∀ b s, s.lutv = false → RaisesOnly (.crcb b) s 0x50) ∧
  (∀ (b : BitVec 8) (s : State), s.lutv = true →
    let c : BitVec 16 := (s.crcacc <<< 8) ^^^ Memory.read s.lut ((s.crcacc >>> 8) ^^^ b.setWidth 16).toNat
    ∃ t, exec (.crcb b) s = .next t ∧ t.crcacc = c ∧ Ended t 0x00 (c.setWidth 32) ∧
      KeepsAllBut [.crcacc, .lastst, .response] s t)

/-- R118, LUTRD. -/
def Obligations.LutrdReadsOneEntry : Prop :=
  (∀ i : BitVec 8, decode (0x04000000#32 ||| i.setWidth 32) = .ok (.lutrd i)) ∧
  (∀ i s, s.lutv = false → RaisesOnly (.lutrd i) s 0x50) ∧
  (∀ i s, s.lutv = true → ∃ t, exec (.lutrd i) s = .next t ∧
    Ended t 0x00 ((Memory.read s.lut i.toNat).setWidth 32) ∧ KeepsAllBut [.lastst, .response] s t)

/-- R121: after CRCINIT and one CRCB for each byte, CRCACC is `crc16` of the bytes, and the last CRCB answered it. -/
def Obligations.RunningFoldIsTheCrc : Prop :=
  ∀ (ds : List (BitVec 8)) (s : State), s.lutv = true → s.waiting = false →
    ∃ t, execAll (pseudoCrc16 ds) s = .next t ∧ t.crcacc = crc16 s.lut ds ∧
      Ended t 0x00 ((crc16 s.lut ds).setWidth 32) ∧ KeepsAllBut [.crcacc, .lastst, .response] s t

/-! ### Header commands -/

/-- R135, HDRMK: the packet number is masked to 11 bits and the checksum computed from the masked one. -/
def Obligations.HdrmkBuildsAConsistentHeader : Prop :=
  (∀ (op len : BitVec 2) (ack : BitVec 1) (pn16 : BitVec 16),
    decode (0x10000000#32 ||| (op.setWidth 32 <<< 19) ||| (len.setWidth 32 <<< 17) ||| (ack.setWidth 32 <<< 16)
      ||| pn16.setWidth 32) = .ok (.hdrmk op len ack pn16)) ∧
  (∀ (op len : BitVec 2) (ack : BitVec 1) (pn16 : BitVec 16) (s : State),
    let ck := ~~~ ((op.setWidth 16 <<< 14) ||| (len.setWidth 16 <<< 12) ||| (ack.setWidth 16 <<< 11) ||| (pn16 &&& 0x7FF))
    ∃ t, exec (.hdrmk op len ack pn16) s = .next t ∧
      t.hOpcode = op ∧ t.hLength = len ∧ t.hAck = ack ∧ t.hPktnum.toNat = pn16.toNat % 2048 ∧ t.hChecksum = ck ∧
      Ended t 0x00 (ck.setWidth 32) ∧
      KeepsAllBut [.hOpcode, .hLength, .hAck, .hPktnum, .hChecksum, .lastst, .response] s t)

/-- R136, HDRCHK. -/
def Obligations.HdrchkVerifiesTheHeader : Prop :=
  decode 0x11000000#32 = .ok .hdrchk ∧
  (∀ s, s.hChecksum ≠ hdrChecksum s.hOpcode s.hLength s.hAck s.hPktnum → RaisesOnly .hdrchk s 0x21) ∧
  (∀ s, s.hChecksum = hdrChecksum s.hOpcode s.hLength s.hAck s.hPktnum →
    ∃ t, exec .hdrchk s = .next t ∧ Ended t 0x00 (s.hChecksum.setWidth 32) ∧ KeepsAllBut [.lastst, .response] s t)

/-- R137, HDRPK: the header word above the checksum, as one 32-bit number. -/
def Obligations.HdrpkPacksTheHeader : Prop :=
  decode 0x12000000#32 = .ok .hdrpk ∧
  ∀ s, ∃ t, exec .hdrpk s = .next t ∧
    Ended t 0x00 (((hdrWord s.hOpcode s.hLength s.hAck s.hPktnum).setWidth 32 <<< 16) ||| s.hChecksum.setWidth 32) ∧
    KeepsAllBut [.lastst, .response] s t

/-! ### Codec commands -/

/-- R146, SETSZ. -/
def Obligations.SetszSetsTheSize : Prop :=
  (∀ cls : BitVec 2, decode (0x20000000#32 ||| cls.setWidth 32) = .ok (.setsz cls)) ∧
  (∀ cls s, ∃ t, exec (.setsz cls) s = .next t ∧ t.bufsz.toNat = 32 * 2 ^ cls.toNat ∧
    Ended t 0x00 (BitVec.ofNat 32 (32 * 2 ^ cls.toNat)) ∧ KeepsAllBut [.bufsz, .lastst, .response] s t)

/-- R147, PLDCLR: bytes below BUFSZ become 0, bytes at and above it stay. -/
def Obligations.PldclrZeroesTheSignificantBytes : Prop :=
  decode 0x21000000#32 = .ok .pldclr ∧
  (∀ s, s.bufsz = 0 → RaisesOnly .pldclr s 0x52) ∧
  (∀ s, s.bufsz ≠ 0 → s.bufsz.toNat ≤ 256 → ∃ t, exec .pldclr s = .next t ∧
    (∀ a, a < s.bufsz.toNat → Memory.read t.pld a = 0) ∧
    (∀ a, s.bufsz.toNat ≤ a → Memory.read t.pld a = Memory.read s.pld a) ∧
    Ended t 0x00 0 ∧ KeepsAllBut [.pld, .lastst, .response] s t)

/-- R148, PLDW: the byte at the operand's index and no other. -/
def Obligations.PldwWritesOneByte : Prop :=
  (∀ idx b : BitVec 8, decode (0x22000000#32 ||| (idx.setWidth 32 <<< 8) ||| b.setWidth 32) = .ok (.pldw idx b)) ∧
  (∀ idx b s, s.bufsz = 0 → RaisesOnly (.pldw idx b) s 0x52) ∧
  (∀ idx b s, s.bufsz ≠ 0 → s.bufsz.toNat ≤ idx.toNat → RaisesOnly (.pldw idx b) s 0x12) ∧
  (∀ idx b s, idx.toNat < s.bufsz.toNat → ∃ t, exec (.pldw idx b) s = .next t ∧
    Memory.read t.pld idx.toNat = b ∧ (∀ a, a ≠ idx.toNat → Memory.read t.pld a = Memory.read s.pld a) ∧
    Ended t 0x00 0 ∧ KeepsAllBut [.pld, .lastst, .response] s t)

/-- R149, PLDRD: any index, whatever the size in force. -/
def Obligations.PldrdReadsOneByte : Prop :=
  (∀ idx : BitVec 8, decode (0x23000000#32 ||| idx.setWidth 32) = .ok (.pldrd idx)) ∧
  (∀ idx s, ∃ t, exec (.pldrd idx) s = .next t ∧ Ended t 0x00 ((Memory.read s.pld idx.toNat).setWidth 32) ∧
    KeepsAllBut [.lastst, .response] s t)

/-- R150: PLDCLR and one PLDW for each byte, from index 0, leave the data and zeroes up to BUFSZ. -/
def Obligations.PayloadCreateLoadsAndZeroFills : Prop :=
  ∀ (ds : List (BitVec 8)) (s : State), s.bufsz ≠ 0 → s.bufsz.toNat ≤ 256 → ds.length ≤ s.bufsz.toNat →
    s.waiting = false →
    ∃ is t, pseudoPayloadCreate ds = some is ∧ execAll is s = .next t ∧
      (∀ i, i < ds.length → Memory.read t.pld i = ds.getD i 0) ∧
      (∀ i, ds.length ≤ i → i < s.bufsz.toNat → Memory.read t.pld i = 0) ∧
      (∀ i, s.bufsz.toNat ≤ i → Memory.read t.pld i = Memory.read s.pld i) ∧
      Ended t 0x00 0 ∧ KeepsAllBut [.pld, .lastst, .response] s t

/-- R152, R154, SER: the checks in their order; then the frame of R151 at FRM[0..BUFSZ+6), every other byte of FRM as
before. The premise `BUFSZ ≤ 256` is R50's (`Invariant`). -/
def Obligations.SerWritesTheFrame : Prop :=
  (∀ cap : BitVec 16, decode (0x24000000#32 ||| cap.setWidth 32) = .ok (.ser cap)) ∧
  (∀ cap s, s.lutv = false → RaisesOnly (.ser cap) s 0x50) ∧
  (∀ cap s, s.lutv = true → s.bufsz = 0 → RaisesOnly (.ser cap) s 0x52) ∧
  (∀ cap s, s.lutv = true → s.bufsz ≠ 0 → cap.toNat < s.bufsz.toNat + 6 → RaisesOnly (.ser cap) s 0x10) ∧
  (∀ cap s, s.lutv = true → s.bufsz ≠ 0 → s.bufsz.toNat ≤ 256 → s.bufsz.toNat + 6 ≤ cap.toNat →
    let n := s.bufsz.toNat + 6
    let body := hdrPack s.header ++ Memory.readSeq s.pld 0 s.bufsz.toNat
    let c := crc16 s.lut body
    ∃ t, exec (.ser cap) s = .next t ∧
      Memory.readSeq t.frm 0 n = body ++ [(c >>> 8).setWidth 8, c.setWidth 8] ∧
      (∀ a, n ≤ a → Memory.read t.frm a = Memory.read s.frm a) ∧
      t.frmlen.toNat = n ∧ t.crc16 = c ∧ Ended t 0x00 (c.setWidth 32) ∧
      KeepsAllBut [.frm, .frmlen, .crc16, .lastst, .response] s t)

/-- R158, R159, R160, DES: the checks in their order, nothing committed on failure; then the commit. The premise
`BUFSZ ≤ 256` is R50's (`Invariant`). -/
def Obligations.DesValidatesAndUnpacks : Prop :=
  decode 0x25000000#32 = .ok .des ∧
  (∀ s, s.lutv = false → RaisesOnly .des s 0x50) ∧
  (∀ s, s.lutv = true → s.bufsz = 0 → RaisesOnly .des s 0x52) ∧
  (∀ s, s.lutv = true → s.bufsz ≠ 0 → s.frmlen.toNat < s.bufsz.toNat + 6 → RaisesOnly .des s 0x11) ∧
  (∀ s, s.lutv = true → s.bufsz ≠ 0 → s.bufsz.toNat ≤ 256 → s.bufsz.toNat + 6 ≤ s.frmlen.toNat →
    let B := s.bufsz.toNat
    let residual := crc16 s.lut (Memory.readSeq s.frm 0 (B + 6))
    let h := hdrUnpack (Memory.read s.frm 0) (Memory.read s.frm 1) (Memory.read s.frm 2) (Memory.read s.frm 3)
    let c := beU16 (Memory.read s.frm (B + 4)) (Memory.read s.frm (B + 5))
    (residual ≠ 0 → RaisesOnly .des s 0x20) ∧
    (residual = 0 → h.ck ≠ hdrChecksum h.op h.len h.ack h.pn → RaisesOnly .des s 0x21) ∧
    (residual = 0 → h.ck = hdrChecksum h.op h.len h.ack h.pn →
      ∃ t, exec .des s = .next t ∧ t.header = h ∧
        (∀ a, a < B → Memory.read t.pld a = Memory.read s.frm (4 + a)) ∧
        (∀ a, B ≤ a → Memory.read t.pld a = Memory.read s.pld a) ∧
        t.crc16 = c ∧ Ended t 0x00 (c.setWidth 32) ∧
        KeepsAllBut [.hOpcode, .hLength, .hAck, .hPktnum, .hChecksum, .pld, .crc16, .lastst, .response] s t))

/-- R163, FRMCLR: the length, not the bytes. -/
def Obligations.FrmclrEmptiesTheBuffer : Prop :=
  decode 0x26000000#32 = .ok .frmclr ∧
  ∀ s, ∃ t, exec .frmclr s = .next t ∧ t.frmlen = 0 ∧ Ended t 0x00 0 ∧ KeepsAllBut [.frmlen, .lastst, .response] s t

/-- R164, FRMB: the byte at FRMLEN and no other. -/
def Obligations.FrmbAppendsOneByte : Prop :=
  (∀ b : BitVec 8, decode (0x27000000#32 ||| b.setWidth 32) = .ok (.frmb b)) ∧
  (∀ b s, s.frmlen.toNat = 262 → RaisesOnly (.frmb b) s 0x13) ∧
  (∀ b s, s.frmlen.toNat < 262 → ∃ t, exec (.frmb b) s = .next t ∧
    Memory.read t.frm s.frmlen.toNat = b ∧ (∀ a, a ≠ s.frmlen.toNat → Memory.read t.frm a = Memory.read s.frm a) ∧
    t.frmlen.toNat = s.frmlen.toNat + 1 ∧ Ended t 0x00 (BitVec.ofNat 32 (s.frmlen.toNat + 1)) ∧
    KeepsAllBut [.frm, .frmlen, .lastst, .response] s t)

/-- R165, FRMRD. -/
def Obligations.FrmrdReadsOneByte : Prop :=
  (∀ idx : BitVec 16, decode (0x28000000#32 ||| idx.setWidth 32) = .ok (.frmrd idx)) ∧
  (∀ idx s, 262 ≤ idx.toNat → RaisesOnly (.frmrd idx) s 0x32) ∧
  (∀ idx s, idx.toNat < 262 → ∃ t, exec (.frmrd idx) s = .next t ∧
    Ended t 0x00 ((Memory.read s.frm idx.toNat).setWidth 32) ∧ KeepsAllBut [.lastst, .response] s t)

/-- R161 (1): SER then DES reproduces the packet, in every state of the invariant whose header is consistent. -/
def Obligations.SerThenDesReproducesThePacket : Prop :=
  ∀ (cap : BitVec 16) (s : State), Invariant s → s.lutv = true → s.bufsz ≠ 0 → s.bufsz.toNat + 6 ≤ cap.toNat →
    headerConsistent s.header = true →
    ∃ t u, exec (.ser cap) s = .next t ∧ exec .des t = .next u ∧ Ended u 0x00 (t.crc16.setWidth 32) ∧
      u.header = s.header ∧ (∀ a, Memory.read u.pld a = Memory.read s.pld a) ∧ u.crc16 = t.crc16 ∧
      KeepsAllBut [.lastst, .response] t u

/-- R161 (2): with an inconsistent header SER succeeds and the DES after it ends with 0x21 and commits nothing. -/
def Obligations.SerOfInconsistentHeaderIsRejected : Prop :=
  ∀ (cap : BitVec 16) (s : State), Invariant s → s.lutv = true → s.bufsz ≠ 0 → s.bufsz.toNat + 6 ≤ cap.toNat →
    headerConsistent s.header = false →
    ∃ t, exec (.ser cap) s = .next t ∧ Ended t 0x00 (t.crc16.setWidth 32) ∧ RaisesOnly .des t 0x21

/-- R161 (3), for polynomials with an x^0 term: if DES succeeds, SER after it rewrites FRM with the same bytes. (For
other polynomials it need not: notes/assumptions/15.md.) -/
def Obligations.DesThenSerRewritesTheFrame : Prop :=
  ∀ (cap : BitVec 16) (s t : State), Invariant s → s.poly.getLsbD 0 = true → s.bufsz.toNat + 6 ≤ cap.toNat →
    exec .des s = .next t → t.lastst = 0x00 →
    ∃ u, exec (.ser cap) t = .next u ∧ Ended u 0x00 (t.crc16.setWidth 32) ∧
      (∀ a, Memory.read u.frm a = Memory.read s.frm a) ∧ u.crc16 = t.crc16

/-- R162, R123, for every polynomial with an x^0 term: after SER, a frame with any one byte changed is rejected by DES
with 0x20. The frame is changed in FRM, as if it had come back over the line. -/
def Obligations.OneChangedByteIsRejected : Prop :=
  ∀ (cap : BitVec 16) (s t : State) (a : Nat) (b : BitVec 8), Invariant s → s.poly.getLsbD 0 = true →
    exec (.ser cap) s = .next t → t.lastst = 0x00 → a < s.bufsz.toNat + 6 → b ≠ Memory.read t.frm a →
    RaisesOnly .des (t.setFrm (Memory.write t.frm a b)) 0x20

/-! ### Framer and session commands -/

/-- R176, TX: the bytes FRM[0..FRMLEN) in index order behind what was sent before; every byte is accepted, as R71 lets
the model have it (notes/assumptions/9.md). The premise `FRMLEN ≤ 262` is R50's (`Invariant`). -/
def Obligations.TxSendsTheFrameBuffer : Prop :=
  decode 0x30000000#32 = .ok .tx ∧
  (∀ s, s.frmlen.toNat ≤ 262 → ∃ t, exec .tx s = .next t ∧
    t.txlog.length = s.txlog.length + s.frmlen.toNat ∧ s.txlog <+: t.txlog ∧
    (∀ i, i < s.frmlen.toNat → t.txlog.getD (s.txlog.length + i) 0 = Memory.read s.frm i) ∧
    Ended t 0x00 (s.frmlen.setWidth 32) ∧ KeepsAllBut [.txlog, .lastst, .response] s t)

/-- R177, R215, RX: refused without a size; the frame when it arrives whole; otherwise the block waits, having taken
what did arrive, and gives no response. What the waiting block holds is the model's choice (notes/assumptions/4.md,
5.md). The premise `BUFSZ ≤ 256` is R50's (`Invariant`). -/
def Obligations.RxReceivesOneFrame : Prop :=
  decode 0x31000000#32 = .ok .rx ∧
  (∀ s, s.bufsz = 0 → RaisesOnly .rx s 0x52) ∧
  (∀ s, s.bufsz ≠ 0 → s.bufsz.toNat ≤ 256 → s.bufsz.toNat + 6 ≤ s.rxq.length → ∃ t, exec .rx s = .next t ∧
    (∀ i, i < s.bufsz.toNat + 6 → Memory.read t.frm i = s.rxq.getD i 0) ∧
    (∀ a, s.bufsz.toNat + 6 ≤ a → Memory.read t.frm a = Memory.read s.frm a) ∧
    t.frmlen.toNat = s.bufsz.toNat + 6 ∧ t.rxq = s.rxq.drop (s.bufsz.toNat + 6) ∧
    Ended t 0x00 (BitVec.ofNat 32 (s.bufsz.toNat + 6)) ∧ KeepsAllBut [.frm, .frmlen, .rxq, .lastst, .response] s t) ∧
  (∀ s, s.bufsz ≠ 0 → s.bufsz.toNat ≤ 256 → s.rxq.length < s.bufsz.toNat + 6 → ∃ t, exec .rx s = .next t ∧
    t.waiting = true ∧ t.response = none ∧ t.rxq = [] ∧ KeepsAllBut [.frm, .rxq, .response, .waiting] s t)

/-- R179, R182, R183, HSK: when it is refused before any byte is taken, and when it starts the session. -/
def Obligations.HskStartsTheSession : Prop :=
  decode 0x32000000#32 = .ok .hsk ∧
  (∀ s, s.lutv = false → RaisesOnly .hsk s 0x50) ∧
  (∀ s, s.lutv = true → s.sess = true → RaisesOnly .hsk s 0x53) ∧
  (∀ s, s.lutv = true → s.sess = false → 38 ≤ s.rxq.length →
    let f := fun i => s.rxq.getD i 0
    let h := hdrUnpack (f 0) (f 1) (f 2) (f 3)
    crc16 s.lut (s.rxq.take 38) = 0 → h.ck = hdrChecksum h.op h.len h.ack h.pn → (f 4).toNat ≤ 7 →
    (beU16 (f 9) (f 10)).toNat ∈ [32, 64, 128, 256] →
    ∃ t, exec .hsk s = .next t ∧
      t.sess = true ∧ t.ackf = f 4 ∧ t.npkt = beU32 (f 5) (f 6) (f 7) (f 8) ∧ t.psize = beU16 (f 9) (f 10) ∧
      t.bufsz = beU16 (f 9) (f 10) ∧ t.header = h ∧ t.crc16 = beU16 (f 36) (f 37) ∧
      (∀ i, i < 32 → Memory.read t.pld i = f (4 + i)) ∧ (∀ a, 32 ≤ a → Memory.read t.pld a = Memory.read s.pld a) ∧
      (∀ i, i < 38 → Memory.read t.frm i = f i) ∧ (∀ a, 38 ≤ a → Memory.read t.frm a = Memory.read s.frm a) ∧
      t.frmlen = 38 ∧ t.rxq = s.rxq.drop 38 ∧ Ended t 0x00 ((beU16 (f 9) (f 10)).setWidth 32) ∧
      KeepsAllBut (writeSet .hsk ++ endingItems) s t ∧ t.waiting = s.waiting)

/-- R184: what stays written after each failure of HSK that has taken bytes, and the wait (whose block contents are the
model's choice: notes/assumptions/4.md, 5.md). -/
def Obligations.HskFailureLeavesTheStepsDone : Prop :=
  ∀ s : State, s.lutv = true → s.sess = false →
    let f := fun i => s.rxq.getD i 0
    let h := hdrUnpack (f 0) (f 1) (f 2) (f 3)
    let residual := crc16 s.lut (s.rxq.take 38)
    (s.rxq.length < 38 → ∃ t, exec .hsk s = .next t ∧ t.waiting = true ∧ t.response = none ∧ t.rxq = [] ∧
      KeepsAllBut [.bufsz, .frm, .rxq, .response, .waiting] s t) ∧
    (38 ≤ s.rxq.length →
      let received := fun (t : State) => t.bufsz = 32 ∧ (∀ i, i < 38 → Memory.read t.frm i = f i) ∧
        (∀ a, 38 ≤ a → Memory.read t.frm a = Memory.read s.frm a) ∧ t.frmlen = 38 ∧ t.rxq = s.rxq.drop 38
      let committed := fun (t : State) => t.header = h ∧ t.crc16 = beU16 (f 36) (f 37) ∧
        (∀ i, i < 32 → Memory.read t.pld i = f (4 + i)) ∧ (∀ a, 32 ≤ a → Memory.read t.pld a = Memory.read s.pld a)
      (residual ≠ 0 → ∃ t, exec .hsk s = .next t ∧ Ended t 0x20 0 ∧ received t ∧
        KeepsAllBut [.bufsz, .frm, .frmlen, .rxq, .lastst, .response] s t) ∧
      (residual = 0 → h.ck ≠ hdrChecksum h.op h.len h.ack h.pn → ∃ t, exec .hsk s = .next t ∧ Ended t 0x21 0 ∧
        received t ∧ KeepsAllBut [.bufsz, .frm, .frmlen, .rxq, .lastst, .response] s t) ∧
      (residual = 0 → h.ck = hdrChecksum h.op h.len h.ack h.pn → 8 ≤ (f 4).toNat →
        ∃ t, exec .hsk s = .next t ∧ Ended t 0x40 0 ∧ received t ∧ committed t ∧
          KeepsAllBut ([.bufsz, .frm, .frmlen, .rxq, .pld, .crc16, .lastst, .response] ++ headerItems) s t) ∧
      (residual = 0 → h.ck = hdrChecksum h.op h.len h.ack h.pn → (f 4).toNat ≤ 7 →
        (beU16 (f 9) (f 10)).toNat ∉ [32, 64, 128, 256] →
        ∃ t, exec .hsk s = .next t ∧ Ended t 0x41 0 ∧ received t ∧ committed t ∧
          KeepsAllBut ([.bufsz, .frm, .frmlen, .rxq, .pld, .crc16, .lastst, .response] ++ headerItems) s t))

/-- R186, SESSEND: the instance group is zero, everything else is kept. -/
def Obligations.SessendClearsTheInstance : Prop :=
  decode 0x33000000#32 = .ok .sessend ∧
  ∀ s, ∃ t, exec .sessend s = .next t ∧
    t.hOpcode = 0 ∧ t.hLength = 0 ∧ t.hAck = 0 ∧ t.hPktnum = 0 ∧ t.hChecksum = 0 ∧
    (∀ a, Memory.read t.pld a = 0) ∧ t.bufsz = 0 ∧ t.crc16 = 0 ∧ t.ackf = 0 ∧ t.npkt = 0 ∧ t.psize = 0 ∧
    (∀ a, Memory.read t.frm a = 0) ∧ t.frmlen = 0 ∧ t.sess = false ∧ Ended t 0x00 0 ∧
    KeepsAllBut [.hOpcode, .hLength, .hAck, .hPktnum, .hChecksum, .pld, .bufsz, .crc16, .ackf, .npkt, .psize, .frm,
      .frmlen, .sess, .lastst, .response] s t

/-- The corner case of R186: after SESSEND the block is as after RESET and the same LUTGEN, but for CRCACC and LASTST. -/
def Obligations.SessendIsResetWithTheTableKept : Prop :=
  ∀ s t u : State, Invariant s → s.lutv = true → exec .sessend s = .next t →
    exec (.lutgen s.poly) s.applyReset = .next u →
    KeepsAllBut [.crcacc, .lastst, .response, .waiting] t u

/-- R47, R187, RD: the value of every register, the index error, and that nothing is written, not even LASTST. The
premise `ACKF ≤ 7` is R50's (`Invariant`). -/
def Obligations.RdReadsEveryRegister : Prop :=
  (∀ r : BitVec 8, decode (0x3F000000#32 ||| r.setWidth 32) = .ok (.rd r)) ∧
  (∀ r s, 14 < r.toNat → ∃ t, exec (.rd r) s = .next t ∧ t.response = some ⟨0x32, 0⟩ ∧ KeepsAllBut [.response] s t) ∧
  (∀ (r : BitVec 8) (s : State), r.toNat ≤ 14 → s.ackf.toNat ≤ 7 → ∃ t v, exec (.rd r) s = .next t ∧
    t.response = some ⟨0x00, BitVec.ofNat 32 v⟩ ∧ KeepsAllBut [.response] s t ∧
    [s.lastst.toNat + 256 * s.lutv.toNat + 512 * s.sess.toNat, s.poly.toNat, s.crcacc.toNat, s.hOpcode.toNat,
      s.hLength.toNat, s.hAck.toNat, s.hPktnum.toNat, s.hChecksum.toNat, s.bufsz.toNat, s.crc16.toNat, s.ackf.toNat,
      s.npkt.toNat, s.psize.toNat, s.frmlen.toNat, [1, 8, 16, 32, 64, 128, 256, 512].getD s.ackf.toNat 0][r.toNat]?
      = some v)

/-! ### Header words at the command port -/

/-- A header word that no command row matches is an illegal command (R90, by the reading of notes/assumptions/1.md). -/
def Obligations.HeaderWordsAreIllegalCommands : Prop :=
  ∀ (len : BitVec 2) (ack : BitVec 1) (pn : BitVec 11) (ck : BitVec 16) (s : State),
    RaisesOnly (.wirehdrConnect len ack pn ck) s 0x30 ∧
    RaisesOnly (.wirehdrDisconnect len ack pn ck) s 0x30 ∧
    RaisesOnly (.wirehdrData len ack pn ck) s 0x30 ∧
    RaisesOnly (.wirehdrError len ack pn ck) s 0x30

/-! ### Reset and the wait -/

/-- R52: every register and memory that the spec gives a reset value holds it, and LUT is unreadable: each command that
would read it ends with 0x50. -/
def Obligations.ResetLeavesTheSpecsValues : Prop :=
  let s := State.reset
  s.poly = 0 ∧ s.lutv = false ∧ s.crcacc = 0 ∧ s.hOpcode = 0 ∧ s.hLength = 0 ∧ s.hAck = 0 ∧ s.hPktnum = 0 ∧
  s.hChecksum = 0 ∧ (∀ a, Memory.read s.pld a = 0) ∧ s.bufsz = 0 ∧ s.crc16 = 0 ∧ s.ackf = 0 ∧ s.npkt = 0 ∧
  s.psize = 0 ∧ (∀ a, Memory.read s.frm a = 0) ∧ s.frmlen = 0 ∧ s.sess = false ∧ s.lastst = 0 ∧
  (∀ i : Instr, ((∃ b, i = .crcb b) ∨ (∃ b, i = .lutrd b) ∨ (∃ cap, i = .ser cap) ∨ i = .des ∨ i = .hsk) →
    RaisesOnly i s 0x50)

/-- R230, R232: RESET is taken up in every state, also while a command waits; the block is then as after reset (what
LUT holds apart: notes/assumptions/6.md), the environment is not touched, and no response is given. The script and the
flag `waiting` are the model's own (notes/assumptions/2.md, 4.md, 10.md). -/
def Obligations.ResetEventFromEveryState : Prop :=
  ∀ (s : State) (rest : List HostEvent), s.inbox = .reset :: rest →
    ∃ t, step s = .next t ∧ t.rxq = s.rxq ∧ t.txlog = s.txlog ∧ t.inbox = rest ∧ t.response = none ∧
      t.waiting = false ∧ KeepsAllBut [.lut, .rxq, .txlog, .inbox, .response, .waiting] State.reset t

/-- R215, R178, read as an infinite execution, which is the model's choice (notes/assumptions/4.md, 13.md): a block that
waits stays as it is, however long it runs and whatever commands the host would present, while RESET does not come. -/
def Obligations.WaitingBlockNeverGoesOn : Prop :=
  ∀ (s : State) (k : Nat), s.waiting = true →
    (∀ rest, s.inbox ≠ .reset :: rest) → (∀ cw n rest, s.inbox ≠ .resetDuring cw n :: rest) →
    Host.Core.run Sys2Proof.core k s = .next s

/-! ### The whole machine -/

/-- The invariant of R50 holds after reset. -/
def Obligations.InvariantHoldsAtReset : Prop := Invariant State.reset

/-- Every step keeps the invariant of R50 and the memories' canonical form. -/
def Obligations.EveryStepKeepsTheInvariant : Prop :=
  ∀ s t : State, Invariant s → step s = .next t → Invariant t

/-- R216: no command word, no operand and no received byte stops the machine; every state of the invariant goes on. -/
def Obligations.NothingStopsTheMachine : Prop :=
  ∀ s : State, Invariant s → GoesOn (step s)

/-- Where the machine stops, which is the model's choice (notes/assumptions/11.md): an access outside a memory or
ACKTAB, asked for only in states that R50 says no run reaches. -/
def Obligations.AccessesOutsideAreFaults : Prop :=
  ∀ s : State,
    (256 < s.bufsz.toNat → exec .pldclr s = .fault .pldOutside ∧ exec .rx s = .fault .frmOutside ∧
      (s.lutv = true →
        (∀ cap : BitVec 16, s.bufsz.toNat + 6 ≤ cap.toNat → exec (.ser cap) s = .fault .pldOutside) ∧
        (s.bufsz.toNat + 6 ≤ s.frmlen.toNat → exec .des s = .fault .pldOutside))) ∧
    (262 < s.frmlen.toNat → exec .tx s = .fault .frmOutside ∧ ∀ b, exec (.frmb b) s = .fault .frmOutside) ∧
    (7 < s.ackf.toNat → exec (.rd 14) s = .fault .ackTabOutside)

/-- R48: a command that gives a next state has written nothing outside its row of the table of write sets, its ending
apart; and a command other than HSK that ends with an error has written nothing but its ending. -/
def Obligations.CommandsWriteOnlyTheirWriteSets : Prop :=
  ∀ (i : Instr) (s t : State), exec i s = .next t →
    KeepsAllBut (writeSet i ++ endingSet i) s t ∧
    (∀ r, i ≠ .hsk → t.response = some r → r.st ≠ 0x00 → KeepsAllBut (endingSet i) s t)

/-- R211, R203, R200: every response a command gives carries OK or a code of its row, an error's value is 0, and LASTST
holds the code unless the command is RD. Only RX and HSK may give no response, and then the flag `waiting` is set: R211
lets TX end not at all too, which the model does not have, every sent byte being accepted (R71; notes/assumptions/9.md),
and the flag is the model's choice (notes/assumptions/4.md). -/
def Obligations.CommandsEndWithTheirCodes : Prop :=
  ∀ (i : Instr) (s t : State), exec i s = .next t →
    (t.response = none ∧ t.waiting = true ∧ (i = .rx ∨ i = .hsk)) ∨
    (∃ r, t.response = some r ∧ (r.st = 0x00 ∨ r.st ∈ errorCodes i) ∧ (r.st ≠ 0x00 → r.val = 0) ∧
      ((∀ n, i ≠ .rd n) → t.lastst = r.st))

/-- R188: only HSK ending with OK starts a session, only SESSEND ends one. -/
def Obligations.SessionChangesOnlyByHskAndSessend : Prop :=
  ∀ (i : Instr) (s t : State), exec i s = .next t →
    (s.sess = false → t.sess = true → i = .hsk ∧ t.lastst = 0x00 ∧ t.response ≠ none) ∧
    (s.sess = true → t.sess = false → i = .sessend) ∧
    (i = .hsk → s.sess = true → t.sess = true ∧ t.rxq = s.rxq)

/-- R188, R43: nothing but HSK depends on the session. Apart from SESSEND, which clears it, and `RD 0`, which shows it,
every other command ends alike in both session states, and leaves the session as it is. -/
def Obligations.OnlyHskDependsOnTheSession : Prop :=
  ∀ (i : Instr) (b : Bool) (s : State), i ≠ .hsk → i ≠ .sessend → i ≠ .rd 0 →
    (∀ t, exec i s = .next t → exec i { s with sess := b } = .next { t with sess := b }) ∧
    (∀ e, exec i s = .fault e → exec i { s with sess := b } = .fault e)

/-- R28, D16: SER, DES, HSK, TX and RX neither read nor write CRCACC: with another CRCACC they end alike in everything
else. -/
def Obligations.CodecDoesNotUseTheAccumulator : Prop :=
  ∀ (i : Instr) (c : BitVec 16) (s : State),
    ((∃ cap, i = .ser cap) ∨ i = .des ∨ i = .hsk ∨ i = .tx ∨ i = .rx) →
    (∀ t, exec i s = .next t → exec i { s with crcacc := c } = .next { t with crcacc := c }) ∧
    (∀ e, exec i s = .fault e → exec i { s with crcacc := c } = .fault e)

/-- R25, D9, U4: while LUTV is 0 no command can tell what LUT holds: with any other content it gives the same response
and leaves every other piece of state the same. -/
def Obligations.TableIsUnobservableBeforeLutgen : Prop :=
  ∀ (i : Instr) (lut' : Memory 16) (s t : State), s.lutv = false → exec i s = .next t →
    ∃ t', exec i { s with lut := lut' } = .next t' ∧ t'.response = t.response ∧ KeepsAllBut [.lut] t t'

/-! ### RESET during a command -/

/-- R230, R232, R70: RESET during a command, when it has moved `k` bytes over the transport, or all it moves if they are
fewer. The block is as after reset (what LUT holds apart: notes/assumptions/6.md) and no response is given. Of the
environment, TX has sent the first bytes of FRM, RX and HSK have taken the first bytes of `rxq` if their checks let them
take any, the bytes behind these still come, and every other word has moved nothing; to a block that waits already no
word is presented. How a RESET during a command is written in the script is the model's choice
(notes/assumptions/3.md); the script and `waiting` are the model's own (notes/assumptions/2.md, 4.md, 10.md). -/
def Obligations.ResetDuringACommand : Prop :=
  ∀ (s : State) (cw : BitVec 32) (k : Nat) (rest : List HostEvent), Invariant s →
    s.inbox = .resetDuring cw k :: rest →
    ∃ t, step s = .next t ∧ t.inbox = rest ∧ t.response = none ∧ t.waiting = false ∧
      KeepsAllBut [.lut, .rxq, .txlog, .inbox, .response, .waiting] State.reset t ∧
      t.txlog = s.txlog ++ Memory.readSeq s.frm 0
        (if s.waiting = false ∧ cw = 0x30000000 then min k s.frmlen.toNat else 0) ∧
      t.rxq = s.rxq.drop
        (if s.waiting = false ∧ cw = 0x31000000 ∧ s.bufsz ≠ 0 then min k (s.bufsz.toNat + 6)
         else if s.waiting = false ∧ cw = 0x32000000 ∧ s.lutv = true ∧ s.sess = false then min k 38
         else 0)
end

