-- ==== Sys2Proof/Laws/State.lean ====
section
/-! SUPPORT. What each named update of State leaves in each field: one lemma per field per update, true by rfl. -/

namespace Sys2Proof.Machine

section
variable (s : State)

/-! `State.setTable` -/

@[simp] theorem State.setTable_lut (m : Memory 16) (p : BitVec 16) : (s.setTable m p).lut = m := rfl
@[simp] theorem State.setTable_poly (m : Memory 16) (p : BitVec 16) : (s.setTable m p).poly = p := rfl
@[simp] theorem State.setTable_lutv (m : Memory 16) (p : BitVec 16) : (s.setTable m p).lutv = true := rfl
@[simp] theorem State.setTable_crcacc (m : Memory 16) (p : BitVec 16) : (s.setTable m p).crcacc = s.crcacc := rfl
@[simp] theorem State.setTable_hOpcode (m : Memory 16) (p : BitVec 16) : (s.setTable m p).hOpcode = s.hOpcode := rfl
@[simp] theorem State.setTable_hLength (m : Memory 16) (p : BitVec 16) : (s.setTable m p).hLength = s.hLength := rfl
@[simp] theorem State.setTable_hAck (m : Memory 16) (p : BitVec 16) : (s.setTable m p).hAck = s.hAck := rfl
@[simp] theorem State.setTable_hPktnum (m : Memory 16) (p : BitVec 16) : (s.setTable m p).hPktnum = s.hPktnum := rfl
@[simp] theorem State.setTable_hChecksum (m : Memory 16) (p : BitVec 16) : (s.setTable m p).hChecksum = s.hChecksum := rfl
@[simp] theorem State.setTable_pld (m : Memory 16) (p : BitVec 16) : (s.setTable m p).pld = s.pld := rfl
@[simp] theorem State.setTable_bufsz (m : Memory 16) (p : BitVec 16) : (s.setTable m p).bufsz = s.bufsz := rfl
@[simp] theorem State.setTable_crc16 (m : Memory 16) (p : BitVec 16) : (s.setTable m p).crc16 = s.crc16 := rfl
@[simp] theorem State.setTable_ackf (m : Memory 16) (p : BitVec 16) : (s.setTable m p).ackf = s.ackf := rfl
@[simp] theorem State.setTable_npkt (m : Memory 16) (p : BitVec 16) : (s.setTable m p).npkt = s.npkt := rfl
@[simp] theorem State.setTable_psize (m : Memory 16) (p : BitVec 16) : (s.setTable m p).psize = s.psize := rfl
@[simp] theorem State.setTable_frm (m : Memory 16) (p : BitVec 16) : (s.setTable m p).frm = s.frm := rfl
@[simp] theorem State.setTable_frmlen (m : Memory 16) (p : BitVec 16) : (s.setTable m p).frmlen = s.frmlen := rfl
@[simp] theorem State.setTable_sess (m : Memory 16) (p : BitVec 16) : (s.setTable m p).sess = s.sess := rfl
@[simp] theorem State.setTable_lastst (m : Memory 16) (p : BitVec 16) : (s.setTable m p).lastst = s.lastst := rfl
@[simp] theorem State.setTable_rxq (m : Memory 16) (p : BitVec 16) : (s.setTable m p).rxq = s.rxq := rfl
@[simp] theorem State.setTable_txlog (m : Memory 16) (p : BitVec 16) : (s.setTable m p).txlog = s.txlog := rfl
@[simp] theorem State.setTable_inbox (m : Memory 16) (p : BitVec 16) : (s.setTable m p).inbox = s.inbox := rfl
@[simp] theorem State.setTable_response (m : Memory 16) (p : BitVec 16) : (s.setTable m p).response = s.response := rfl
@[simp] theorem State.setTable_waiting (m : Memory 16) (p : BitVec 16) : (s.setTable m p).waiting = s.waiting := rfl

/-! `State.setCrcacc` -/

@[simp] theorem State.setCrcacc_lut (c : BitVec 16) : (s.setCrcacc c).lut = s.lut := rfl
@[simp] theorem State.setCrcacc_poly (c : BitVec 16) : (s.setCrcacc c).poly = s.poly := rfl
@[simp] theorem State.setCrcacc_lutv (c : BitVec 16) : (s.setCrcacc c).lutv = s.lutv := rfl
@[simp] theorem State.setCrcacc_crcacc (c : BitVec 16) : (s.setCrcacc c).crcacc = c := rfl
@[simp] theorem State.setCrcacc_hOpcode (c : BitVec 16) : (s.setCrcacc c).hOpcode = s.hOpcode := rfl
@[simp] theorem State.setCrcacc_hLength (c : BitVec 16) : (s.setCrcacc c).hLength = s.hLength := rfl
@[simp] theorem State.setCrcacc_hAck (c : BitVec 16) : (s.setCrcacc c).hAck = s.hAck := rfl
@[simp] theorem State.setCrcacc_hPktnum (c : BitVec 16) : (s.setCrcacc c).hPktnum = s.hPktnum := rfl
@[simp] theorem State.setCrcacc_hChecksum (c : BitVec 16) : (s.setCrcacc c).hChecksum = s.hChecksum := rfl
@[simp] theorem State.setCrcacc_pld (c : BitVec 16) : (s.setCrcacc c).pld = s.pld := rfl
@[simp] theorem State.setCrcacc_bufsz (c : BitVec 16) : (s.setCrcacc c).bufsz = s.bufsz := rfl
@[simp] theorem State.setCrcacc_crc16 (c : BitVec 16) : (s.setCrcacc c).crc16 = s.crc16 := rfl
@[simp] theorem State.setCrcacc_ackf (c : BitVec 16) : (s.setCrcacc c).ackf = s.ackf := rfl
@[simp] theorem State.setCrcacc_npkt (c : BitVec 16) : (s.setCrcacc c).npkt = s.npkt := rfl
@[simp] theorem State.setCrcacc_psize (c : BitVec 16) : (s.setCrcacc c).psize = s.psize := rfl
@[simp] theorem State.setCrcacc_frm (c : BitVec 16) : (s.setCrcacc c).frm = s.frm := rfl
@[simp] theorem State.setCrcacc_frmlen (c : BitVec 16) : (s.setCrcacc c).frmlen = s.frmlen := rfl
@[simp] theorem State.setCrcacc_sess (c : BitVec 16) : (s.setCrcacc c).sess = s.sess := rfl
@[simp] theorem State.setCrcacc_lastst (c : BitVec 16) : (s.setCrcacc c).lastst = s.lastst := rfl
@[simp] theorem State.setCrcacc_rxq (c : BitVec 16) : (s.setCrcacc c).rxq = s.rxq := rfl
@[simp] theorem State.setCrcacc_txlog (c : BitVec 16) : (s.setCrcacc c).txlog = s.txlog := rfl
@[simp] theorem State.setCrcacc_inbox (c : BitVec 16) : (s.setCrcacc c).inbox = s.inbox := rfl
@[simp] theorem State.setCrcacc_response (c : BitVec 16) : (s.setCrcacc c).response = s.response := rfl
@[simp] theorem State.setCrcacc_waiting (c : BitVec 16) : (s.setCrcacc c).waiting = s.waiting := rfl

/-! `State.setHeader` -/

@[simp] theorem State.setHeader_lut (h : Header) : (s.setHeader h).lut = s.lut := rfl
@[simp] theorem State.setHeader_poly (h : Header) : (s.setHeader h).poly = s.poly := rfl
@[simp] theorem State.setHeader_lutv (h : Header) : (s.setHeader h).lutv = s.lutv := rfl
@[simp] theorem State.setHeader_crcacc (h : Header) : (s.setHeader h).crcacc = s.crcacc := rfl
@[simp] theorem State.setHeader_hOpcode (h : Header) : (s.setHeader h).hOpcode = h.op := rfl
@[simp] theorem State.setHeader_hLength (h : Header) : (s.setHeader h).hLength = h.len := rfl
@[simp] theorem State.setHeader_hAck (h : Header) : (s.setHeader h).hAck = h.ack := rfl
@[simp] theorem State.setHeader_hPktnum (h : Header) : (s.setHeader h).hPktnum = h.pn := rfl
@[simp] theorem State.setHeader_hChecksum (h : Header) : (s.setHeader h).hChecksum = h.ck := rfl
@[simp] theorem State.setHeader_pld (h : Header) : (s.setHeader h).pld = s.pld := rfl
@[simp] theorem State.setHeader_bufsz (h : Header) : (s.setHeader h).bufsz = s.bufsz := rfl
@[simp] theorem State.setHeader_crc16 (h : Header) : (s.setHeader h).crc16 = s.crc16 := rfl
@[simp] theorem State.setHeader_ackf (h : Header) : (s.setHeader h).ackf = s.ackf := rfl
@[simp] theorem State.setHeader_npkt (h : Header) : (s.setHeader h).npkt = s.npkt := rfl
@[simp] theorem State.setHeader_psize (h : Header) : (s.setHeader h).psize = s.psize := rfl
@[simp] theorem State.setHeader_frm (h : Header) : (s.setHeader h).frm = s.frm := rfl
@[simp] theorem State.setHeader_frmlen (h : Header) : (s.setHeader h).frmlen = s.frmlen := rfl
@[simp] theorem State.setHeader_sess (h : Header) : (s.setHeader h).sess = s.sess := rfl
@[simp] theorem State.setHeader_lastst (h : Header) : (s.setHeader h).lastst = s.lastst := rfl
@[simp] theorem State.setHeader_rxq (h : Header) : (s.setHeader h).rxq = s.rxq := rfl
@[simp] theorem State.setHeader_txlog (h : Header) : (s.setHeader h).txlog = s.txlog := rfl
@[simp] theorem State.setHeader_inbox (h : Header) : (s.setHeader h).inbox = s.inbox := rfl
@[simp] theorem State.setHeader_response (h : Header) : (s.setHeader h).response = s.response := rfl
@[simp] theorem State.setHeader_waiting (h : Header) : (s.setHeader h).waiting = s.waiting := rfl

/-! `State.setPld` -/

@[simp] theorem State.setPld_lut (m : Memory 8) : (s.setPld m).lut = s.lut := rfl
@[simp] theorem State.setPld_poly (m : Memory 8) : (s.setPld m).poly = s.poly := rfl
@[simp] theorem State.setPld_lutv (m : Memory 8) : (s.setPld m).lutv = s.lutv := rfl
@[simp] theorem State.setPld_crcacc (m : Memory 8) : (s.setPld m).crcacc = s.crcacc := rfl
@[simp] theorem State.setPld_hOpcode (m : Memory 8) : (s.setPld m).hOpcode = s.hOpcode := rfl
@[simp] theorem State.setPld_hLength (m : Memory 8) : (s.setPld m).hLength = s.hLength := rfl
@[simp] theorem State.setPld_hAck (m : Memory 8) : (s.setPld m).hAck = s.hAck := rfl
@[simp] theorem State.setPld_hPktnum (m : Memory 8) : (s.setPld m).hPktnum = s.hPktnum := rfl
@[simp] theorem State.setPld_hChecksum (m : Memory 8) : (s.setPld m).hChecksum = s.hChecksum := rfl
@[simp] theorem State.setPld_pld (m : Memory 8) : (s.setPld m).pld = m := rfl
@[simp] theorem State.setPld_bufsz (m : Memory 8) : (s.setPld m).bufsz = s.bufsz := rfl
@[simp] theorem State.setPld_crc16 (m : Memory 8) : (s.setPld m).crc16 = s.crc16 := rfl
@[simp] theorem State.setPld_ackf (m : Memory 8) : (s.setPld m).ackf = s.ackf := rfl
@[simp] theorem State.setPld_npkt (m : Memory 8) : (s.setPld m).npkt = s.npkt := rfl
@[simp] theorem State.setPld_psize (m : Memory 8) : (s.setPld m).psize = s.psize := rfl
@[simp] theorem State.setPld_frm (m : Memory 8) : (s.setPld m).frm = s.frm := rfl
@[simp] theorem State.setPld_frmlen (m : Memory 8) : (s.setPld m).frmlen = s.frmlen := rfl
@[simp] theorem State.setPld_sess (m : Memory 8) : (s.setPld m).sess = s.sess := rfl
@[simp] theorem State.setPld_lastst (m : Memory 8) : (s.setPld m).lastst = s.lastst := rfl
@[simp] theorem State.setPld_rxq (m : Memory 8) : (s.setPld m).rxq = s.rxq := rfl
@[simp] theorem State.setPld_txlog (m : Memory 8) : (s.setPld m).txlog = s.txlog := rfl
@[simp] theorem State.setPld_inbox (m : Memory 8) : (s.setPld m).inbox = s.inbox := rfl
@[simp] theorem State.setPld_response (m : Memory 8) : (s.setPld m).response = s.response := rfl
@[simp] theorem State.setPld_waiting (m : Memory 8) : (s.setPld m).waiting = s.waiting := rfl

/-! `State.setBufsz` -/

@[simp] theorem State.setBufsz_lut (v : BitVec 16) : (s.setBufsz v).lut = s.lut := rfl
@[simp] theorem State.setBufsz_poly (v : BitVec 16) : (s.setBufsz v).poly = s.poly := rfl
@[simp] theorem State.setBufsz_lutv (v : BitVec 16) : (s.setBufsz v).lutv = s.lutv := rfl
@[simp] theorem State.setBufsz_crcacc (v : BitVec 16) : (s.setBufsz v).crcacc = s.crcacc := rfl
@[simp] theorem State.setBufsz_hOpcode (v : BitVec 16) : (s.setBufsz v).hOpcode = s.hOpcode := rfl
@[simp] theorem State.setBufsz_hLength (v : BitVec 16) : (s.setBufsz v).hLength = s.hLength := rfl
@[simp] theorem State.setBufsz_hAck (v : BitVec 16) : (s.setBufsz v).hAck = s.hAck := rfl
@[simp] theorem State.setBufsz_hPktnum (v : BitVec 16) : (s.setBufsz v).hPktnum = s.hPktnum := rfl
@[simp] theorem State.setBufsz_hChecksum (v : BitVec 16) : (s.setBufsz v).hChecksum = s.hChecksum := rfl
@[simp] theorem State.setBufsz_pld (v : BitVec 16) : (s.setBufsz v).pld = s.pld := rfl
@[simp] theorem State.setBufsz_bufsz (v : BitVec 16) : (s.setBufsz v).bufsz = v := rfl
@[simp] theorem State.setBufsz_crc16 (v : BitVec 16) : (s.setBufsz v).crc16 = s.crc16 := rfl
@[simp] theorem State.setBufsz_ackf (v : BitVec 16) : (s.setBufsz v).ackf = s.ackf := rfl
@[simp] theorem State.setBufsz_npkt (v : BitVec 16) : (s.setBufsz v).npkt = s.npkt := rfl
@[simp] theorem State.setBufsz_psize (v : BitVec 16) : (s.setBufsz v).psize = s.psize := rfl
@[simp] theorem State.setBufsz_frm (v : BitVec 16) : (s.setBufsz v).frm = s.frm := rfl
@[simp] theorem State.setBufsz_frmlen (v : BitVec 16) : (s.setBufsz v).frmlen = s.frmlen := rfl
@[simp] theorem State.setBufsz_sess (v : BitVec 16) : (s.setBufsz v).sess = s.sess := rfl
@[simp] theorem State.setBufsz_lastst (v : BitVec 16) : (s.setBufsz v).lastst = s.lastst := rfl
@[simp] theorem State.setBufsz_rxq (v : BitVec 16) : (s.setBufsz v).rxq = s.rxq := rfl
@[simp] theorem State.setBufsz_txlog (v : BitVec 16) : (s.setBufsz v).txlog = s.txlog := rfl
@[simp] theorem State.setBufsz_inbox (v : BitVec 16) : (s.setBufsz v).inbox = s.inbox := rfl
@[simp] theorem State.setBufsz_response (v : BitVec 16) : (s.setBufsz v).response = s.response := rfl
@[simp] theorem State.setBufsz_waiting (v : BitVec 16) : (s.setBufsz v).waiting = s.waiting := rfl

/-! `State.setCrc16` -/

@[simp] theorem State.setCrc16_lut (c : BitVec 16) : (s.setCrc16 c).lut = s.lut := rfl
@[simp] theorem State.setCrc16_poly (c : BitVec 16) : (s.setCrc16 c).poly = s.poly := rfl
@[simp] theorem State.setCrc16_lutv (c : BitVec 16) : (s.setCrc16 c).lutv = s.lutv := rfl
@[simp] theorem State.setCrc16_crcacc (c : BitVec 16) : (s.setCrc16 c).crcacc = s.crcacc := rfl
@[simp] theorem State.setCrc16_hOpcode (c : BitVec 16) : (s.setCrc16 c).hOpcode = s.hOpcode := rfl
@[simp] theorem State.setCrc16_hLength (c : BitVec 16) : (s.setCrc16 c).hLength = s.hLength := rfl
@[simp] theorem State.setCrc16_hAck (c : BitVec 16) : (s.setCrc16 c).hAck = s.hAck := rfl
@[simp] theorem State.setCrc16_hPktnum (c : BitVec 16) : (s.setCrc16 c).hPktnum = s.hPktnum := rfl
@[simp] theorem State.setCrc16_hChecksum (c : BitVec 16) : (s.setCrc16 c).hChecksum = s.hChecksum := rfl
@[simp] theorem State.setCrc16_pld (c : BitVec 16) : (s.setCrc16 c).pld = s.pld := rfl
@[simp] theorem State.setCrc16_bufsz (c : BitVec 16) : (s.setCrc16 c).bufsz = s.bufsz := rfl
@[simp] theorem State.setCrc16_crc16 (c : BitVec 16) : (s.setCrc16 c).crc16 = c := rfl
@[simp] theorem State.setCrc16_ackf (c : BitVec 16) : (s.setCrc16 c).ackf = s.ackf := rfl
@[simp] theorem State.setCrc16_npkt (c : BitVec 16) : (s.setCrc16 c).npkt = s.npkt := rfl
@[simp] theorem State.setCrc16_psize (c : BitVec 16) : (s.setCrc16 c).psize = s.psize := rfl
@[simp] theorem State.setCrc16_frm (c : BitVec 16) : (s.setCrc16 c).frm = s.frm := rfl
@[simp] theorem State.setCrc16_frmlen (c : BitVec 16) : (s.setCrc16 c).frmlen = s.frmlen := rfl
@[simp] theorem State.setCrc16_sess (c : BitVec 16) : (s.setCrc16 c).sess = s.sess := rfl
@[simp] theorem State.setCrc16_lastst (c : BitVec 16) : (s.setCrc16 c).lastst = s.lastst := rfl
@[simp] theorem State.setCrc16_rxq (c : BitVec 16) : (s.setCrc16 c).rxq = s.rxq := rfl
@[simp] theorem State.setCrc16_txlog (c : BitVec 16) : (s.setCrc16 c).txlog = s.txlog := rfl
@[simp] theorem State.setCrc16_inbox (c : BitVec 16) : (s.setCrc16 c).inbox = s.inbox := rfl
@[simp] theorem State.setCrc16_response (c : BitVec 16) : (s.setCrc16 c).response = s.response := rfl
@[simp] theorem State.setCrc16_waiting (c : BitVec 16) : (s.setCrc16 c).waiting = s.waiting := rfl

/-! `State.setOptions` -/

@[simp] theorem State.setOptions_lut (o : Options) : (s.setOptions o).lut = s.lut := rfl
@[simp] theorem State.setOptions_poly (o : Options) : (s.setOptions o).poly = s.poly := rfl
@[simp] theorem State.setOptions_lutv (o : Options) : (s.setOptions o).lutv = s.lutv := rfl
@[simp] theorem State.setOptions_crcacc (o : Options) : (s.setOptions o).crcacc = s.crcacc := rfl
@[simp] theorem State.setOptions_hOpcode (o : Options) : (s.setOptions o).hOpcode = s.hOpcode := rfl
@[simp] theorem State.setOptions_hLength (o : Options) : (s.setOptions o).hLength = s.hLength := rfl
@[simp] theorem State.setOptions_hAck (o : Options) : (s.setOptions o).hAck = s.hAck := rfl
@[simp] theorem State.setOptions_hPktnum (o : Options) : (s.setOptions o).hPktnum = s.hPktnum := rfl
@[simp] theorem State.setOptions_hChecksum (o : Options) : (s.setOptions o).hChecksum = s.hChecksum := rfl
@[simp] theorem State.setOptions_pld (o : Options) : (s.setOptions o).pld = s.pld := rfl
@[simp] theorem State.setOptions_bufsz (o : Options) : (s.setOptions o).bufsz = s.bufsz := rfl
@[simp] theorem State.setOptions_crc16 (o : Options) : (s.setOptions o).crc16 = s.crc16 := rfl
@[simp] theorem State.setOptions_ackf (o : Options) : (s.setOptions o).ackf = o.ackf := rfl
@[simp] theorem State.setOptions_npkt (o : Options) : (s.setOptions o).npkt = o.npkt := rfl
@[simp] theorem State.setOptions_psize (o : Options) : (s.setOptions o).psize = o.psize := rfl
@[simp] theorem State.setOptions_frm (o : Options) : (s.setOptions o).frm = s.frm := rfl
@[simp] theorem State.setOptions_frmlen (o : Options) : (s.setOptions o).frmlen = s.frmlen := rfl
@[simp] theorem State.setOptions_sess (o : Options) : (s.setOptions o).sess = s.sess := rfl
@[simp] theorem State.setOptions_lastst (o : Options) : (s.setOptions o).lastst = s.lastst := rfl
@[simp] theorem State.setOptions_rxq (o : Options) : (s.setOptions o).rxq = s.rxq := rfl
@[simp] theorem State.setOptions_txlog (o : Options) : (s.setOptions o).txlog = s.txlog := rfl
@[simp] theorem State.setOptions_inbox (o : Options) : (s.setOptions o).inbox = s.inbox := rfl
@[simp] theorem State.setOptions_response (o : Options) : (s.setOptions o).response = s.response := rfl
@[simp] theorem State.setOptions_waiting (o : Options) : (s.setOptions o).waiting = s.waiting := rfl

/-! `State.setFrm` -/

@[simp] theorem State.setFrm_lut (m : Memory 8) : (s.setFrm m).lut = s.lut := rfl
@[simp] theorem State.setFrm_poly (m : Memory 8) : (s.setFrm m).poly = s.poly := rfl
@[simp] theorem State.setFrm_lutv (m : Memory 8) : (s.setFrm m).lutv = s.lutv := rfl
@[simp] theorem State.setFrm_crcacc (m : Memory 8) : (s.setFrm m).crcacc = s.crcacc := rfl
@[simp] theorem State.setFrm_hOpcode (m : Memory 8) : (s.setFrm m).hOpcode = s.hOpcode := rfl
@[simp] theorem State.setFrm_hLength (m : Memory 8) : (s.setFrm m).hLength = s.hLength := rfl
@[simp] theorem State.setFrm_hAck (m : Memory 8) : (s.setFrm m).hAck = s.hAck := rfl
@[simp] theorem State.setFrm_hPktnum (m : Memory 8) : (s.setFrm m).hPktnum = s.hPktnum := rfl
@[simp] theorem State.setFrm_hChecksum (m : Memory 8) : (s.setFrm m).hChecksum = s.hChecksum := rfl
@[simp] theorem State.setFrm_pld (m : Memory 8) : (s.setFrm m).pld = s.pld := rfl
@[simp] theorem State.setFrm_bufsz (m : Memory 8) : (s.setFrm m).bufsz = s.bufsz := rfl
@[simp] theorem State.setFrm_crc16 (m : Memory 8) : (s.setFrm m).crc16 = s.crc16 := rfl
@[simp] theorem State.setFrm_ackf (m : Memory 8) : (s.setFrm m).ackf = s.ackf := rfl
@[simp] theorem State.setFrm_npkt (m : Memory 8) : (s.setFrm m).npkt = s.npkt := rfl
@[simp] theorem State.setFrm_psize (m : Memory 8) : (s.setFrm m).psize = s.psize := rfl
@[simp] theorem State.setFrm_frm (m : Memory 8) : (s.setFrm m).frm = m := rfl
@[simp] theorem State.setFrm_frmlen (m : Memory 8) : (s.setFrm m).frmlen = s.frmlen := rfl
@[simp] theorem State.setFrm_sess (m : Memory 8) : (s.setFrm m).sess = s.sess := rfl
@[simp] theorem State.setFrm_lastst (m : Memory 8) : (s.setFrm m).lastst = s.lastst := rfl
@[simp] theorem State.setFrm_rxq (m : Memory 8) : (s.setFrm m).rxq = s.rxq := rfl
@[simp] theorem State.setFrm_txlog (m : Memory 8) : (s.setFrm m).txlog = s.txlog := rfl
@[simp] theorem State.setFrm_inbox (m : Memory 8) : (s.setFrm m).inbox = s.inbox := rfl
@[simp] theorem State.setFrm_response (m : Memory 8) : (s.setFrm m).response = s.response := rfl
@[simp] theorem State.setFrm_waiting (m : Memory 8) : (s.setFrm m).waiting = s.waiting := rfl

/-! `State.setFrmlen` -/

@[simp] theorem State.setFrmlen_lut (n : Nat) : (s.setFrmlen n).lut = s.lut := rfl
@[simp] theorem State.setFrmlen_poly (n : Nat) : (s.setFrmlen n).poly = s.poly := rfl
@[simp] theorem State.setFrmlen_lutv (n : Nat) : (s.setFrmlen n).lutv = s.lutv := rfl
@[simp] theorem State.setFrmlen_crcacc (n : Nat) : (s.setFrmlen n).crcacc = s.crcacc := rfl
@[simp] theorem State.setFrmlen_hOpcode (n : Nat) : (s.setFrmlen n).hOpcode = s.hOpcode := rfl
@[simp] theorem State.setFrmlen_hLength (n : Nat) : (s.setFrmlen n).hLength = s.hLength := rfl
@[simp] theorem State.setFrmlen_hAck (n : Nat) : (s.setFrmlen n).hAck = s.hAck := rfl
@[simp] theorem State.setFrmlen_hPktnum (n : Nat) : (s.setFrmlen n).hPktnum = s.hPktnum := rfl
@[simp] theorem State.setFrmlen_hChecksum (n : Nat) : (s.setFrmlen n).hChecksum = s.hChecksum := rfl
@[simp] theorem State.setFrmlen_pld (n : Nat) : (s.setFrmlen n).pld = s.pld := rfl
@[simp] theorem State.setFrmlen_bufsz (n : Nat) : (s.setFrmlen n).bufsz = s.bufsz := rfl
@[simp] theorem State.setFrmlen_crc16 (n : Nat) : (s.setFrmlen n).crc16 = s.crc16 := rfl
@[simp] theorem State.setFrmlen_ackf (n : Nat) : (s.setFrmlen n).ackf = s.ackf := rfl
@[simp] theorem State.setFrmlen_npkt (n : Nat) : (s.setFrmlen n).npkt = s.npkt := rfl
@[simp] theorem State.setFrmlen_psize (n : Nat) : (s.setFrmlen n).psize = s.psize := rfl
@[simp] theorem State.setFrmlen_frm (n : Nat) : (s.setFrmlen n).frm = s.frm := rfl
@[simp] theorem State.setFrmlen_frmlen (n : Nat) : (s.setFrmlen n).frmlen = BitVec.ofNat 16 n := rfl
@[simp] theorem State.setFrmlen_sess (n : Nat) : (s.setFrmlen n).sess = s.sess := rfl
@[simp] theorem State.setFrmlen_lastst (n : Nat) : (s.setFrmlen n).lastst = s.lastst := rfl
@[simp] theorem State.setFrmlen_rxq (n : Nat) : (s.setFrmlen n).rxq = s.rxq := rfl
@[simp] theorem State.setFrmlen_txlog (n : Nat) : (s.setFrmlen n).txlog = s.txlog := rfl
@[simp] theorem State.setFrmlen_inbox (n : Nat) : (s.setFrmlen n).inbox = s.inbox := rfl
@[simp] theorem State.setFrmlen_response (n : Nat) : (s.setFrmlen n).response = s.response := rfl
@[simp] theorem State.setFrmlen_waiting (n : Nat) : (s.setFrmlen n).waiting = s.waiting := rfl

/-! `State.startSession` -/

@[simp] theorem State.startSession_lut : (s.startSession).lut = s.lut := rfl
@[simp] theorem State.startSession_poly : (s.startSession).poly = s.poly := rfl
@[simp] theorem State.startSession_lutv : (s.startSession).lutv = s.lutv := rfl
@[simp] theorem State.startSession_crcacc : (s.startSession).crcacc = s.crcacc := rfl
@[simp] theorem State.startSession_hOpcode : (s.startSession).hOpcode = s.hOpcode := rfl
@[simp] theorem State.startSession_hLength : (s.startSession).hLength = s.hLength := rfl
@[simp] theorem State.startSession_hAck : (s.startSession).hAck = s.hAck := rfl
@[simp] theorem State.startSession_hPktnum : (s.startSession).hPktnum = s.hPktnum := rfl
@[simp] theorem State.startSession_hChecksum : (s.startSession).hChecksum = s.hChecksum := rfl
@[simp] theorem State.startSession_pld : (s.startSession).pld = s.pld := rfl
@[simp] theorem State.startSession_bufsz : (s.startSession).bufsz = s.bufsz := rfl
@[simp] theorem State.startSession_crc16 : (s.startSession).crc16 = s.crc16 := rfl
@[simp] theorem State.startSession_ackf : (s.startSession).ackf = s.ackf := rfl
@[simp] theorem State.startSession_npkt : (s.startSession).npkt = s.npkt := rfl
@[simp] theorem State.startSession_psize : (s.startSession).psize = s.psize := rfl
@[simp] theorem State.startSession_frm : (s.startSession).frm = s.frm := rfl
@[simp] theorem State.startSession_frmlen : (s.startSession).frmlen = s.frmlen := rfl
@[simp] theorem State.startSession_sess : (s.startSession).sess = true := rfl
@[simp] theorem State.startSession_lastst : (s.startSession).lastst = s.lastst := rfl
@[simp] theorem State.startSession_rxq : (s.startSession).rxq = s.rxq := rfl
@[simp] theorem State.startSession_txlog : (s.startSession).txlog = s.txlog := rfl
@[simp] theorem State.startSession_inbox : (s.startSession).inbox = s.inbox := rfl
@[simp] theorem State.startSession_response : (s.startSession).response = s.response := rfl
@[simp] theorem State.startSession_waiting : (s.startSession).waiting = s.waiting := rfl

/-! `State.clearInstance` -/

@[simp] theorem State.clearInstance_lut : (s.clearInstance).lut = s.lut := rfl
@[simp] theorem State.clearInstance_poly : (s.clearInstance).poly = s.poly := rfl
@[simp] theorem State.clearInstance_lutv : (s.clearInstance).lutv = s.lutv := rfl
@[simp] theorem State.clearInstance_crcacc : (s.clearInstance).crcacc = s.crcacc := rfl
@[simp] theorem State.clearInstance_hOpcode : (s.clearInstance).hOpcode = 0 := rfl
@[simp] theorem State.clearInstance_hLength : (s.clearInstance).hLength = 0 := rfl
@[simp] theorem State.clearInstance_hAck : (s.clearInstance).hAck = 0 := rfl
@[simp] theorem State.clearInstance_hPktnum : (s.clearInstance).hPktnum = 0 := rfl
@[simp] theorem State.clearInstance_hChecksum : (s.clearInstance).hChecksum = 0 := rfl
@[simp] theorem State.clearInstance_pld : (s.clearInstance).pld = [] := rfl
@[simp] theorem State.clearInstance_bufsz : (s.clearInstance).bufsz = 0 := rfl
@[simp] theorem State.clearInstance_crc16 : (s.clearInstance).crc16 = 0 := rfl
@[simp] theorem State.clearInstance_ackf : (s.clearInstance).ackf = 0 := rfl
@[simp] theorem State.clearInstance_npkt : (s.clearInstance).npkt = 0 := rfl
@[simp] theorem State.clearInstance_psize : (s.clearInstance).psize = 0 := rfl
@[simp] theorem State.clearInstance_frm : (s.clearInstance).frm = [] := rfl
@[simp] theorem State.clearInstance_frmlen : (s.clearInstance).frmlen = 0 := rfl
@[simp] theorem State.clearInstance_sess : (s.clearInstance).sess = false := rfl
@[simp] theorem State.clearInstance_lastst : (s.clearInstance).lastst = s.lastst := rfl
@[simp] theorem State.clearInstance_rxq : (s.clearInstance).rxq = s.rxq := rfl
@[simp] theorem State.clearInstance_txlog : (s.clearInstance).txlog = s.txlog := rfl
@[simp] theorem State.clearInstance_inbox : (s.clearInstance).inbox = s.inbox := rfl
@[simp] theorem State.clearInstance_response : (s.clearInstance).response = s.response := rfl
@[simp] theorem State.clearInstance_waiting : (s.clearInstance).waiting = s.waiting := rfl

/-! `State.setInbox` -/

@[simp] theorem State.setInbox_lut (l : List HostEvent) : (s.setInbox l).lut = s.lut := rfl
@[simp] theorem State.setInbox_poly (l : List HostEvent) : (s.setInbox l).poly = s.poly := rfl
@[simp] theorem State.setInbox_lutv (l : List HostEvent) : (s.setInbox l).lutv = s.lutv := rfl
@[simp] theorem State.setInbox_crcacc (l : List HostEvent) : (s.setInbox l).crcacc = s.crcacc := rfl
@[simp] theorem State.setInbox_hOpcode (l : List HostEvent) : (s.setInbox l).hOpcode = s.hOpcode := rfl
@[simp] theorem State.setInbox_hLength (l : List HostEvent) : (s.setInbox l).hLength = s.hLength := rfl
@[simp] theorem State.setInbox_hAck (l : List HostEvent) : (s.setInbox l).hAck = s.hAck := rfl
@[simp] theorem State.setInbox_hPktnum (l : List HostEvent) : (s.setInbox l).hPktnum = s.hPktnum := rfl
@[simp] theorem State.setInbox_hChecksum (l : List HostEvent) : (s.setInbox l).hChecksum = s.hChecksum := rfl
@[simp] theorem State.setInbox_pld (l : List HostEvent) : (s.setInbox l).pld = s.pld := rfl
@[simp] theorem State.setInbox_bufsz (l : List HostEvent) : (s.setInbox l).bufsz = s.bufsz := rfl
@[simp] theorem State.setInbox_crc16 (l : List HostEvent) : (s.setInbox l).crc16 = s.crc16 := rfl
@[simp] theorem State.setInbox_ackf (l : List HostEvent) : (s.setInbox l).ackf = s.ackf := rfl
@[simp] theorem State.setInbox_npkt (l : List HostEvent) : (s.setInbox l).npkt = s.npkt := rfl
@[simp] theorem State.setInbox_psize (l : List HostEvent) : (s.setInbox l).psize = s.psize := rfl
@[simp] theorem State.setInbox_frm (l : List HostEvent) : (s.setInbox l).frm = s.frm := rfl
@[simp] theorem State.setInbox_frmlen (l : List HostEvent) : (s.setInbox l).frmlen = s.frmlen := rfl
@[simp] theorem State.setInbox_sess (l : List HostEvent) : (s.setInbox l).sess = s.sess := rfl
@[simp] theorem State.setInbox_lastst (l : List HostEvent) : (s.setInbox l).lastst = s.lastst := rfl
@[simp] theorem State.setInbox_rxq (l : List HostEvent) : (s.setInbox l).rxq = s.rxq := rfl
@[simp] theorem State.setInbox_txlog (l : List HostEvent) : (s.setInbox l).txlog = s.txlog := rfl
@[simp] theorem State.setInbox_inbox (l : List HostEvent) : (s.setInbox l).inbox = l := rfl
@[simp] theorem State.setInbox_response (l : List HostEvent) : (s.setInbox l).response = s.response := rfl
@[simp] theorem State.setInbox_waiting (l : List HostEvent) : (s.setInbox l).waiting = s.waiting := rfl

/-! `State.setEnv` -/

@[simp] theorem State.setEnv_lut (r l : List (BitVec 8)) : (s.setEnv r l).lut = s.lut := rfl
@[simp] theorem State.setEnv_poly (r l : List (BitVec 8)) : (s.setEnv r l).poly = s.poly := rfl
@[simp] theorem State.setEnv_lutv (r l : List (BitVec 8)) : (s.setEnv r l).lutv = s.lutv := rfl
@[simp] theorem State.setEnv_crcacc (r l : List (BitVec 8)) : (s.setEnv r l).crcacc = s.crcacc := rfl
@[simp] theorem State.setEnv_hOpcode (r l : List (BitVec 8)) : (s.setEnv r l).hOpcode = s.hOpcode := rfl
@[simp] theorem State.setEnv_hLength (r l : List (BitVec 8)) : (s.setEnv r l).hLength = s.hLength := rfl
@[simp] theorem State.setEnv_hAck (r l : List (BitVec 8)) : (s.setEnv r l).hAck = s.hAck := rfl
@[simp] theorem State.setEnv_hPktnum (r l : List (BitVec 8)) : (s.setEnv r l).hPktnum = s.hPktnum := rfl
@[simp] theorem State.setEnv_hChecksum (r l : List (BitVec 8)) : (s.setEnv r l).hChecksum = s.hChecksum := rfl
@[simp] theorem State.setEnv_pld (r l : List (BitVec 8)) : (s.setEnv r l).pld = s.pld := rfl
@[simp] theorem State.setEnv_bufsz (r l : List (BitVec 8)) : (s.setEnv r l).bufsz = s.bufsz := rfl
@[simp] theorem State.setEnv_crc16 (r l : List (BitVec 8)) : (s.setEnv r l).crc16 = s.crc16 := rfl
@[simp] theorem State.setEnv_ackf (r l : List (BitVec 8)) : (s.setEnv r l).ackf = s.ackf := rfl
@[simp] theorem State.setEnv_npkt (r l : List (BitVec 8)) : (s.setEnv r l).npkt = s.npkt := rfl
@[simp] theorem State.setEnv_psize (r l : List (BitVec 8)) : (s.setEnv r l).psize = s.psize := rfl
@[simp] theorem State.setEnv_frm (r l : List (BitVec 8)) : (s.setEnv r l).frm = s.frm := rfl
@[simp] theorem State.setEnv_frmlen (r l : List (BitVec 8)) : (s.setEnv r l).frmlen = s.frmlen := rfl
@[simp] theorem State.setEnv_sess (r l : List (BitVec 8)) : (s.setEnv r l).sess = s.sess := rfl
@[simp] theorem State.setEnv_lastst (r l : List (BitVec 8)) : (s.setEnv r l).lastst = s.lastst := rfl
@[simp] theorem State.setEnv_rxq (r l : List (BitVec 8)) : (s.setEnv r l).rxq = r := rfl
@[simp] theorem State.setEnv_txlog (r l : List (BitVec 8)) : (s.setEnv r l).txlog = l := rfl
@[simp] theorem State.setEnv_inbox (r l : List (BitVec 8)) : (s.setEnv r l).inbox = s.inbox := rfl
@[simp] theorem State.setEnv_response (r l : List (BitVec 8)) : (s.setEnv r l).response = s.response := rfl
@[simp] theorem State.setEnv_waiting (r l : List (BitVec 8)) : (s.setEnv r l).waiting = s.waiting := rfl

/-! `State.applyReset` -/

@[simp] theorem State.applyReset_lut : (s.applyReset).lut = [] := rfl
@[simp] theorem State.applyReset_poly : (s.applyReset).poly = 0 := rfl
@[simp] theorem State.applyReset_lutv : (s.applyReset).lutv = false := rfl
@[simp] theorem State.applyReset_crcacc : (s.applyReset).crcacc = 0 := rfl
@[simp] theorem State.applyReset_hOpcode : (s.applyReset).hOpcode = 0 := rfl
@[simp] theorem State.applyReset_hLength : (s.applyReset).hLength = 0 := rfl
@[simp] theorem State.applyReset_hAck : (s.applyReset).hAck = 0 := rfl
@[simp] theorem State.applyReset_hPktnum : (s.applyReset).hPktnum = 0 := rfl
@[simp] theorem State.applyReset_hChecksum : (s.applyReset).hChecksum = 0 := rfl
@[simp] theorem State.applyReset_pld : (s.applyReset).pld = [] := rfl
@[simp] theorem State.applyReset_bufsz : (s.applyReset).bufsz = 0 := rfl
@[simp] theorem State.applyReset_crc16 : (s.applyReset).crc16 = 0 := rfl
@[simp] theorem State.applyReset_ackf : (s.applyReset).ackf = 0 := rfl
@[simp] theorem State.applyReset_npkt : (s.applyReset).npkt = 0 := rfl
@[simp] theorem State.applyReset_psize : (s.applyReset).psize = 0 := rfl
@[simp] theorem State.applyReset_frm : (s.applyReset).frm = [] := rfl
@[simp] theorem State.applyReset_frmlen : (s.applyReset).frmlen = 0 := rfl
@[simp] theorem State.applyReset_sess : (s.applyReset).sess = false := rfl
@[simp] theorem State.applyReset_lastst : (s.applyReset).lastst = 0 := rfl
@[simp] theorem State.applyReset_rxq : (s.applyReset).rxq = s.rxq := rfl
@[simp] theorem State.applyReset_txlog : (s.applyReset).txlog = s.txlog := rfl
@[simp] theorem State.applyReset_inbox : (s.applyReset).inbox = s.inbox := rfl
@[simp] theorem State.applyReset_response : (s.applyReset).response = none := rfl
@[simp] theorem State.applyReset_waiting : (s.applyReset).waiting = false := rfl

/-! `State.finish` -/

@[simp] theorem State.finish_lut (c : Status) (v : BitVec 32) : (s.finish c v).lut = s.lut := rfl
@[simp] theorem State.finish_poly (c : Status) (v : BitVec 32) : (s.finish c v).poly = s.poly := rfl
@[simp] theorem State.finish_lutv (c : Status) (v : BitVec 32) : (s.finish c v).lutv = s.lutv := rfl
@[simp] theorem State.finish_crcacc (c : Status) (v : BitVec 32) : (s.finish c v).crcacc = s.crcacc := rfl
@[simp] theorem State.finish_hOpcode (c : Status) (v : BitVec 32) : (s.finish c v).hOpcode = s.hOpcode := rfl
@[simp] theorem State.finish_hLength (c : Status) (v : BitVec 32) : (s.finish c v).hLength = s.hLength := rfl
@[simp] theorem State.finish_hAck (c : Status) (v : BitVec 32) : (s.finish c v).hAck = s.hAck := rfl
@[simp] theorem State.finish_hPktnum (c : Status) (v : BitVec 32) : (s.finish c v).hPktnum = s.hPktnum := rfl
@[simp] theorem State.finish_hChecksum (c : Status) (v : BitVec 32) : (s.finish c v).hChecksum = s.hChecksum := rfl
@[simp] theorem State.finish_pld (c : Status) (v : BitVec 32) : (s.finish c v).pld = s.pld := rfl
@[simp] theorem State.finish_bufsz (c : Status) (v : BitVec 32) : (s.finish c v).bufsz = s.bufsz := rfl
@[simp] theorem State.finish_crc16 (c : Status) (v : BitVec 32) : (s.finish c v).crc16 = s.crc16 := rfl
@[simp] theorem State.finish_ackf (c : Status) (v : BitVec 32) : (s.finish c v).ackf = s.ackf := rfl
@[simp] theorem State.finish_npkt (c : Status) (v : BitVec 32) : (s.finish c v).npkt = s.npkt := rfl
@[simp] theorem State.finish_psize (c : Status) (v : BitVec 32) : (s.finish c v).psize = s.psize := rfl
@[simp] theorem State.finish_frm (c : Status) (v : BitVec 32) : (s.finish c v).frm = s.frm := rfl
@[simp] theorem State.finish_frmlen (c : Status) (v : BitVec 32) : (s.finish c v).frmlen = s.frmlen := rfl
@[simp] theorem State.finish_sess (c : Status) (v : BitVec 32) : (s.finish c v).sess = s.sess := rfl
@[simp] theorem State.finish_lastst (c : Status) (v : BitVec 32) : (s.finish c v).lastst = c.code := rfl
@[simp] theorem State.finish_rxq (c : Status) (v : BitVec 32) : (s.finish c v).rxq = s.rxq := rfl
@[simp] theorem State.finish_txlog (c : Status) (v : BitVec 32) : (s.finish c v).txlog = s.txlog := rfl
@[simp] theorem State.finish_inbox (c : Status) (v : BitVec 32) : (s.finish c v).inbox = s.inbox := rfl
@[simp] theorem State.finish_response (c : Status) (v : BitVec 32) : (s.finish c v).response = some ⟨c.code, v⟩ := rfl
@[simp] theorem State.finish_waiting (c : Status) (v : BitVec 32) : (s.finish c v).waiting = s.waiting := rfl

/-! `State.answer` -/

@[simp] theorem State.answer_lut (c : Status) (v : BitVec 32) : (s.answer c v).lut = s.lut := rfl
@[simp] theorem State.answer_poly (c : Status) (v : BitVec 32) : (s.answer c v).poly = s.poly := rfl
@[simp] theorem State.answer_lutv (c : Status) (v : BitVec 32) : (s.answer c v).lutv = s.lutv := rfl
@[simp] theorem State.answer_crcacc (c : Status) (v : BitVec 32) : (s.answer c v).crcacc = s.crcacc := rfl
@[simp] theorem State.answer_hOpcode (c : Status) (v : BitVec 32) : (s.answer c v).hOpcode = s.hOpcode := rfl
@[simp] theorem State.answer_hLength (c : Status) (v : BitVec 32) : (s.answer c v).hLength = s.hLength := rfl
@[simp] theorem State.answer_hAck (c : Status) (v : BitVec 32) : (s.answer c v).hAck = s.hAck := rfl
@[simp] theorem State.answer_hPktnum (c : Status) (v : BitVec 32) : (s.answer c v).hPktnum = s.hPktnum := rfl
@[simp] theorem State.answer_hChecksum (c : Status) (v : BitVec 32) : (s.answer c v).hChecksum = s.hChecksum := rfl
@[simp] theorem State.answer_pld (c : Status) (v : BitVec 32) : (s.answer c v).pld = s.pld := rfl
@[simp] theorem State.answer_bufsz (c : Status) (v : BitVec 32) : (s.answer c v).bufsz = s.bufsz := rfl
@[simp] theorem State.answer_crc16 (c : Status) (v : BitVec 32) : (s.answer c v).crc16 = s.crc16 := rfl
@[simp] theorem State.answer_ackf (c : Status) (v : BitVec 32) : (s.answer c v).ackf = s.ackf := rfl
@[simp] theorem State.answer_npkt (c : Status) (v : BitVec 32) : (s.answer c v).npkt = s.npkt := rfl
@[simp] theorem State.answer_psize (c : Status) (v : BitVec 32) : (s.answer c v).psize = s.psize := rfl
@[simp] theorem State.answer_frm (c : Status) (v : BitVec 32) : (s.answer c v).frm = s.frm := rfl
@[simp] theorem State.answer_frmlen (c : Status) (v : BitVec 32) : (s.answer c v).frmlen = s.frmlen := rfl
@[simp] theorem State.answer_sess (c : Status) (v : BitVec 32) : (s.answer c v).sess = s.sess := rfl
@[simp] theorem State.answer_lastst (c : Status) (v : BitVec 32) : (s.answer c v).lastst = s.lastst := rfl
@[simp] theorem State.answer_rxq (c : Status) (v : BitVec 32) : (s.answer c v).rxq = s.rxq := rfl
@[simp] theorem State.answer_txlog (c : Status) (v : BitVec 32) : (s.answer c v).txlog = s.txlog := rfl
@[simp] theorem State.answer_inbox (c : Status) (v : BitVec 32) : (s.answer c v).inbox = s.inbox := rfl
@[simp] theorem State.answer_response (c : Status) (v : BitVec 32) : (s.answer c v).response = some ⟨c.code, v⟩ := rfl
@[simp] theorem State.answer_waiting (c : Status) (v : BitVec 32) : (s.answer c v).waiting = s.waiting := rfl

/-! `State.hang` -/

@[simp] theorem State.hang_lut : (s.hang).lut = s.lut := rfl
@[simp] theorem State.hang_poly : (s.hang).poly = s.poly := rfl
@[simp] theorem State.hang_lutv : (s.hang).lutv = s.lutv := rfl
@[simp] theorem State.hang_crcacc : (s.hang).crcacc = s.crcacc := rfl
@[simp] theorem State.hang_hOpcode : (s.hang).hOpcode = s.hOpcode := rfl
@[simp] theorem State.hang_hLength : (s.hang).hLength = s.hLength := rfl
@[simp] theorem State.hang_hAck : (s.hang).hAck = s.hAck := rfl
@[simp] theorem State.hang_hPktnum : (s.hang).hPktnum = s.hPktnum := rfl
@[simp] theorem State.hang_hChecksum : (s.hang).hChecksum = s.hChecksum := rfl
@[simp] theorem State.hang_pld : (s.hang).pld = s.pld := rfl
@[simp] theorem State.hang_bufsz : (s.hang).bufsz = s.bufsz := rfl
@[simp] theorem State.hang_crc16 : (s.hang).crc16 = s.crc16 := rfl
@[simp] theorem State.hang_ackf : (s.hang).ackf = s.ackf := rfl
@[simp] theorem State.hang_npkt : (s.hang).npkt = s.npkt := rfl
@[simp] theorem State.hang_psize : (s.hang).psize = s.psize := rfl
@[simp] theorem State.hang_frm : (s.hang).frm = s.frm := rfl
@[simp] theorem State.hang_frmlen : (s.hang).frmlen = s.frmlen := rfl
@[simp] theorem State.hang_sess : (s.hang).sess = s.sess := rfl
@[simp] theorem State.hang_lastst : (s.hang).lastst = s.lastst := rfl
@[simp] theorem State.hang_rxq : (s.hang).rxq = s.rxq := rfl
@[simp] theorem State.hang_txlog : (s.hang).txlog = s.txlog := rfl
@[simp] theorem State.hang_inbox : (s.hang).inbox = s.inbox := rfl
@[simp] theorem State.hang_response : (s.hang).response = none := rfl
@[simp] theorem State.hang_waiting : (s.hang).waiting = true := rfl

/-! `State.ready` -/

@[simp] theorem State.ready_lut : (s.ready).lut = s.lut := rfl
@[simp] theorem State.ready_poly : (s.ready).poly = s.poly := rfl
@[simp] theorem State.ready_lutv : (s.ready).lutv = s.lutv := rfl
@[simp] theorem State.ready_crcacc : (s.ready).crcacc = s.crcacc := rfl
@[simp] theorem State.ready_hOpcode : (s.ready).hOpcode = s.hOpcode := rfl
@[simp] theorem State.ready_hLength : (s.ready).hLength = s.hLength := rfl
@[simp] theorem State.ready_hAck : (s.ready).hAck = s.hAck := rfl
@[simp] theorem State.ready_hPktnum : (s.ready).hPktnum = s.hPktnum := rfl
@[simp] theorem State.ready_hChecksum : (s.ready).hChecksum = s.hChecksum := rfl
@[simp] theorem State.ready_pld : (s.ready).pld = s.pld := rfl
@[simp] theorem State.ready_bufsz : (s.ready).bufsz = s.bufsz := rfl
@[simp] theorem State.ready_crc16 : (s.ready).crc16 = s.crc16 := rfl
@[simp] theorem State.ready_ackf : (s.ready).ackf = s.ackf := rfl
@[simp] theorem State.ready_npkt : (s.ready).npkt = s.npkt := rfl
@[simp] theorem State.ready_psize : (s.ready).psize = s.psize := rfl
@[simp] theorem State.ready_frm : (s.ready).frm = s.frm := rfl
@[simp] theorem State.ready_frmlen : (s.ready).frmlen = s.frmlen := rfl
@[simp] theorem State.ready_sess : (s.ready).sess = s.sess := rfl
@[simp] theorem State.ready_lastst : (s.ready).lastst = s.lastst := rfl
@[simp] theorem State.ready_rxq : (s.ready).rxq = s.rxq := rfl
@[simp] theorem State.ready_txlog : (s.ready).txlog = s.txlog := rfl
@[simp] theorem State.ready_inbox : (s.ready).inbox = s.inbox := rfl
@[simp] theorem State.ready_response : (s.ready).response = s.response := rfl
@[simp] theorem State.ready_waiting : (s.ready).waiting = false := rfl

/-! `State.send` -/

@[simp] theorem State.send_lut (bs : List (BitVec 8)) : (s.send bs).lut = s.lut := rfl
@[simp] theorem State.send_poly (bs : List (BitVec 8)) : (s.send bs).poly = s.poly := rfl
@[simp] theorem State.send_lutv (bs : List (BitVec 8)) : (s.send bs).lutv = s.lutv := rfl
@[simp] theorem State.send_crcacc (bs : List (BitVec 8)) : (s.send bs).crcacc = s.crcacc := rfl
@[simp] theorem State.send_hOpcode (bs : List (BitVec 8)) : (s.send bs).hOpcode = s.hOpcode := rfl
@[simp] theorem State.send_hLength (bs : List (BitVec 8)) : (s.send bs).hLength = s.hLength := rfl
@[simp] theorem State.send_hAck (bs : List (BitVec 8)) : (s.send bs).hAck = s.hAck := rfl
@[simp] theorem State.send_hPktnum (bs : List (BitVec 8)) : (s.send bs).hPktnum = s.hPktnum := rfl
@[simp] theorem State.send_hChecksum (bs : List (BitVec 8)) : (s.send bs).hChecksum = s.hChecksum := rfl
@[simp] theorem State.send_pld (bs : List (BitVec 8)) : (s.send bs).pld = s.pld := rfl
@[simp] theorem State.send_bufsz (bs : List (BitVec 8)) : (s.send bs).bufsz = s.bufsz := rfl
@[simp] theorem State.send_crc16 (bs : List (BitVec 8)) : (s.send bs).crc16 = s.crc16 := rfl
@[simp] theorem State.send_ackf (bs : List (BitVec 8)) : (s.send bs).ackf = s.ackf := rfl
@[simp] theorem State.send_npkt (bs : List (BitVec 8)) : (s.send bs).npkt = s.npkt := rfl
@[simp] theorem State.send_psize (bs : List (BitVec 8)) : (s.send bs).psize = s.psize := rfl
@[simp] theorem State.send_frm (bs : List (BitVec 8)) : (s.send bs).frm = s.frm := rfl
@[simp] theorem State.send_frmlen (bs : List (BitVec 8)) : (s.send bs).frmlen = s.frmlen := rfl
@[simp] theorem State.send_sess (bs : List (BitVec 8)) : (s.send bs).sess = s.sess := rfl
@[simp] theorem State.send_lastst (bs : List (BitVec 8)) : (s.send bs).lastst = s.lastst := rfl
@[simp] theorem State.send_rxq (bs : List (BitVec 8)) : (s.send bs).rxq = s.rxq := rfl
@[simp] theorem State.send_txlog (bs : List (BitVec 8)) : (s.send bs).txlog = s.txlog ++ bs := rfl
@[simp] theorem State.send_inbox (bs : List (BitVec 8)) : (s.send bs).inbox = s.inbox := rfl
@[simp] theorem State.send_response (bs : List (BitVec 8)) : (s.send bs).response = s.response := rfl
@[simp] theorem State.send_waiting (bs : List (BitVec 8)) : (s.send bs).waiting = s.waiting := rfl

/-! `State.receive` -/

@[simp] theorem State.receive_lut (n : Nat) : (s.receive n).lut = s.lut := rfl
@[simp] theorem State.receive_poly (n : Nat) : (s.receive n).poly = s.poly := rfl
@[simp] theorem State.receive_lutv (n : Nat) : (s.receive n).lutv = s.lutv := rfl
@[simp] theorem State.receive_crcacc (n : Nat) : (s.receive n).crcacc = s.crcacc := rfl
@[simp] theorem State.receive_hOpcode (n : Nat) : (s.receive n).hOpcode = s.hOpcode := rfl
@[simp] theorem State.receive_hLength (n : Nat) : (s.receive n).hLength = s.hLength := rfl
@[simp] theorem State.receive_hAck (n : Nat) : (s.receive n).hAck = s.hAck := rfl
@[simp] theorem State.receive_hPktnum (n : Nat) : (s.receive n).hPktnum = s.hPktnum := rfl
@[simp] theorem State.receive_hChecksum (n : Nat) : (s.receive n).hChecksum = s.hChecksum := rfl
@[simp] theorem State.receive_pld (n : Nat) : (s.receive n).pld = s.pld := rfl
@[simp] theorem State.receive_bufsz (n : Nat) : (s.receive n).bufsz = s.bufsz := rfl
@[simp] theorem State.receive_crc16 (n : Nat) : (s.receive n).crc16 = s.crc16 := rfl
@[simp] theorem State.receive_ackf (n : Nat) : (s.receive n).ackf = s.ackf := rfl
@[simp] theorem State.receive_npkt (n : Nat) : (s.receive n).npkt = s.npkt := rfl
@[simp] theorem State.receive_psize (n : Nat) : (s.receive n).psize = s.psize := rfl
@[simp] theorem State.receive_frm (n : Nat) : (s.receive n).frm = Memory.writeSeq s.frm 0 (s.rxq.take n) := rfl
@[simp] theorem State.receive_frmlen (n : Nat) : (s.receive n).frmlen = s.frmlen := rfl
@[simp] theorem State.receive_sess (n : Nat) : (s.receive n).sess = s.sess := rfl
@[simp] theorem State.receive_lastst (n : Nat) : (s.receive n).lastst = s.lastst := rfl
@[simp] theorem State.receive_rxq (n : Nat) : (s.receive n).rxq = s.rxq.drop n := rfl
@[simp] theorem State.receive_txlog (n : Nat) : (s.receive n).txlog = s.txlog := rfl
@[simp] theorem State.receive_inbox (n : Nat) : (s.receive n).inbox = s.inbox := rfl
@[simp] theorem State.receive_response (n : Nat) : (s.receive n).response = s.response := rfl
@[simp] theorem State.receive_waiting (n : Nat) : (s.receive n).waiting = s.waiting := rfl

/-! The header registers as one value -/

@[simp] theorem State.header_op : s.header.op = s.hOpcode := rfl
@[simp] theorem State.header_len : s.header.len = s.hLength := rfl
@[simp] theorem State.header_ack : s.header.ack = s.hAck := rfl
@[simp] theorem State.header_pn : s.header.pn = s.hPktnum := rfl
@[simp] theorem State.header_ck : s.header.ck = s.hChecksum := rfl
@[simp] theorem State.setTable_header (m : Memory 16) (p : BitVec 16) : (s.setTable m p).header = s.header := rfl
@[simp] theorem State.setCrcacc_header (c : BitVec 16) : (s.setCrcacc c).header = s.header := rfl
@[simp] theorem State.setHeader_header (h : Header) : (s.setHeader h).header = h := rfl
@[simp] theorem State.setPld_header (m : Memory 8) : (s.setPld m).header = s.header := rfl
@[simp] theorem State.setBufsz_header (v : BitVec 16) : (s.setBufsz v).header = s.header := rfl
@[simp] theorem State.setCrc16_header (c : BitVec 16) : (s.setCrc16 c).header = s.header := rfl
@[simp] theorem State.setOptions_header (o : Options) : (s.setOptions o).header = s.header := rfl
@[simp] theorem State.setFrm_header (m : Memory 8) : (s.setFrm m).header = s.header := rfl
@[simp] theorem State.setFrmlen_header (n : Nat) : (s.setFrmlen n).header = s.header := rfl
@[simp] theorem State.startSession_header : (s.startSession).header = s.header := rfl
@[simp] theorem State.clearInstance_header : (s.clearInstance).header = ⟨0, 0, 0, 0, 0⟩ := rfl
@[simp] theorem State.setInbox_header (l : List HostEvent) : (s.setInbox l).header = s.header := rfl
@[simp] theorem State.setEnv_header (r l : List (BitVec 8)) : (s.setEnv r l).header = s.header := rfl
@[simp] theorem State.applyReset_header : (s.applyReset).header = ⟨0, 0, 0, 0, 0⟩ := rfl
@[simp] theorem State.finish_header (c : Status) (v : BitVec 32) : (s.finish c v).header = s.header := rfl
@[simp] theorem State.answer_header (c : Status) (v : BitVec 32) : (s.answer c v).header = s.header := rfl
@[simp] theorem State.hang_header : (s.hang).header = s.header := rfl
@[simp] theorem State.ready_header : (s.ready).header = s.header := rfl
@[simp] theorem State.send_header (bs : List (BitVec 8)) : (s.send bs).header = s.header := rfl
@[simp] theorem State.receive_header (n : Nat) : (s.receive n).header = s.header := rfl

end

end Sys2Proof.Machine
end

