-- ==== Sys2Proof/Laws/Memory.lean ====
section
/-! SUPPORT. The laws of the memory operations: a read after a write, and that every operation keeps the canonical form
and the memory's bounds. -/

namespace Sys2Proof.Machine

section
variable {w : Nat}

/-! ### Reading -/

@[simp] theorem Memory.read_nil (a : Nat) : Memory.read ([] : Memory w) a = 0 := rfl

theorem Memory.read_cons (k : Nat) (v : BitVec w) (m : Memory w) (a : Nat) :
    Memory.read ((k, v) :: m) a = if k = a then v else Memory.read m a := rfl

theorem Memory.read_erase (m : Memory w) (a b : Nat) :
    Memory.read (Memory.erase m a) b = if b = a then 0 else Memory.read m b := by
  induction m with
  | nil => simp [Memory.erase]
  | cons c m ih =>
    obtain ⟨k, v⟩ := c
    by_cases hk : k = a
    · have : Memory.erase ((k, v) :: m) a = Memory.erase m a := by simp [Memory.erase, hk]
      rw [this, ih, Memory.read_cons]
      by_cases hb : b = a
      · simp [hb]
      · simp [hb, hk, Ne.symm hb]
    · have : Memory.erase ((k, v) :: m) a = (k, v) :: Memory.erase m a := by simp [Memory.erase, hk]
      rw [this, Memory.read_cons, Memory.read_cons, ih]
      by_cases hb : b = a
      · simp [hb, hk]
      · simp [hb]

theorem Memory.read_insert (m : Memory w) (a b : Nat) (v : BitVec w) (h : ∀ c ∈ m, c.1 ≠ a) :
    Memory.read (Memory.insert m a v) b = if b = a then v else Memory.read m b := by
  induction m with
  | nil => simp [Memory.insert, Memory.read_cons, eq_comm]
  | cons c m ih =>
    obtain ⟨k, x⟩ := c
    have hk : k ≠ a := h _ List.mem_cons_self
    have ih' := ih (fun c hc => h c (List.mem_cons_of_mem _ hc))
    unfold Memory.insert
    split
    · rw [Memory.read_cons, Memory.read_cons, ih']
      by_cases hb : b = a
      · simp [hb, hk]
      · simp [hb]
    · rw [Memory.read_cons]
      simp [eq_comm]

theorem Memory.erase_ne (m : Memory w) (a : Nat) : ∀ c ∈ Memory.erase m a, c.1 ≠ a := by
  intro c hc
  simp only [Memory.erase, List.mem_filter, bne_iff_ne] at hc
  exact hc.2

/-- A read after a write: the value written at its index, everything else as before. -/
theorem Memory.read_write (m : Memory w) (a b : Nat) (v : BitVec w) :
    Memory.read (Memory.write m a v) b = if b = a then v else Memory.read m b := by
  unfold Memory.write
  split
  · next h => rw [Memory.read_erase, h]
  · rw [Memory.read_insert _ _ _ _ (Memory.erase_ne m a), Memory.read_erase]
    by_cases hb : b = a <;> simp [hb]

@[simp] theorem Memory.read_write_same (m : Memory w) (a : Nat) (v : BitVec w) :
    Memory.read (Memory.write m a v) a = v := by simp [Memory.read_write]

theorem Memory.read_write_of_ne (m : Memory w) {a b : Nat} (v : BitVec w) (h : b ≠ a) :
    Memory.read (Memory.write m a v) b = Memory.read m b := by simp [Memory.read_write, h]

/-- A read after a sequence is written: the sequence's unit inside its range, everything else as before. -/
theorem Memory.read_writeSeq (vs : List (BitVec w)) : ∀ (m : Memory w) (a b : Nat),
    Memory.read (Memory.writeSeq m a vs) b =
      if a ≤ b ∧ b < a + vs.length then vs.getD (b - a) 0 else Memory.read m b := by
  induction vs with
  | nil => intro m a b; rw [Memory.writeSeq, if_neg (by simp)]
  | cons v vs ih =>
    intro m a b
    rw [Memory.writeSeq, ih, Memory.read_write]
    by_cases hb : b = a
    · subst hb; simp
    · by_cases h : a + 1 ≤ b ∧ b < a + 1 + vs.length
      · have h2 : a ≤ b ∧ b < a + (v :: vs).length := by simp; omega
        rw [if_pos h, if_pos h2]
        obtain ⟨n, rfl⟩ : ∃ n, b = a + 1 + n := ⟨b - (a + 1), by omega⟩
        have : a + 1 + n - a = n + 1 := by omega
        simp [this]
      · have h2 : ¬ (a ≤ b ∧ b < a + (v :: vs).length) := by simp; omega
        rw [if_neg h, if_neg h2, if_neg hb]

theorem Memory.read_writeSeq_outside (vs : List (BitVec w)) (m : Memory w) {a b : Nat} (h : b < a ∨ a + vs.length ≤ b) :
    Memory.read (Memory.writeSeq m a vs) b = Memory.read m b := by
  rw [Memory.read_writeSeq, if_neg (by omega)]

@[simp] theorem Memory.length_readSeq (m : Memory w) : ∀ (n a : Nat), (Memory.readSeq m a n).length = n
  | 0, _ => rfl
  | n + 1, a => by simp [Memory.readSeq, Memory.length_readSeq m n]

theorem Memory.getD_readSeq (m : Memory w) : ∀ (n a i : Nat), i < n →
    (Memory.readSeq m a n).getD i 0 = Memory.read m (a + i)
  | 0, _, _, h => absurd h (Nat.not_lt_zero _)
  | n + 1, a, 0, _ => by simp [Memory.readSeq]
  | n + 1, a, i + 1, h => by
    have := Memory.getD_readSeq m n (a + 1) i (by omega)
    rw [Memory.readSeq, List.getD_cons_succ, this]
    congr 1
    omega

/-- A sequence read back is the sequence of the single reads. -/
theorem Memory.readSeq_eq_map (m : Memory w) : ∀ (n a : Nat),
    Memory.readSeq m a n = (List.range n).map (fun i => Memory.read m (a + i))
  | 0, _ => rfl
  | n + 1, a => by
    rw [Memory.readSeq, Memory.readSeq_eq_map m n (a + 1), List.range_succ_eq_map]
    simp [Function.comp_def, Nat.add_assoc, Nat.add_comm 1]

theorem Memory.readSeq_congr (m m' : Memory w) (n a a' : Nat)
    (h : ∀ i, i < n → Memory.read m (a + i) = Memory.read m' (a' + i)) :
    Memory.readSeq m a n = Memory.readSeq m' a' n := by
  rw [Memory.readSeq_eq_map, Memory.readSeq_eq_map]
  exact List.map_congr_left (fun i hi => h i (List.mem_range.mp hi))

theorem Memory.readSeq_add (m : Memory w) : ∀ (n k a : Nat),
    Memory.readSeq m a (n + k) = Memory.readSeq m a n ++ Memory.readSeq m (a + n) k
  | 0, k, a => by simp [Memory.readSeq]
  | n + 1, k, a => by
    rw [show n + 1 + k = (n + k) + 1 by omega, Memory.readSeq, Memory.readSeq_add m n k (a + 1), Memory.readSeq]
    simp [Nat.add_assoc, Nat.add_comm 1]

/-- Reading back a whole sequence just written gives the sequence. -/
theorem Memory.readSeq_writeSeq (m : Memory w) (a : Nat) (vs : List (BitVec w)) :
    Memory.readSeq (Memory.writeSeq m a vs) a vs.length = vs := by
  apply List.ext_getElem (by simp)
  intro i h1 h2
  have h1' : i < vs.length := h2
  have e := Memory.getD_readSeq (Memory.writeSeq m a vs) vs.length a i h1'
  rw [Memory.read_writeSeq, if_pos (by omega), Nat.add_sub_cancel_left] at e
  rw [List.getD_eq_getElem _ _ h1, List.getD_eq_getElem _ _ h2] at e
  exact e

theorem Memory.read_ofList (vs : List (BitVec w)) : ∀ (a b : Nat),
    Memory.read (Memory.ofList a vs) b = if a ≤ b ∧ b < a + vs.length then vs.getD (b - a) 0 else 0 := by
  induction vs with
  | nil => intro a b; simp [Memory.ofList]
  | cons v vs ih =>
    intro a b
    have key : Memory.read (Memory.ofList a (v :: vs)) b
        = if a = b then v else Memory.read (Memory.ofList (a + 1) vs) b := by
      by_cases hv : v = 0
      · have e : Memory.ofList a (v :: vs) = Memory.ofList (a + 1) vs := by simp [Memory.ofList, hv]
        rw [e]
        by_cases hb : a = b
        · rw [if_pos hb, ih, if_neg (by omega), hv]
        · rw [if_neg hb]
      · have e : Memory.ofList a (v :: vs) = (a, v) :: Memory.ofList (a + 1) vs := by
          rw [Memory.ofList, if_neg hv]
        rw [e, Memory.read_cons]
    rw [key, ih]
    by_cases hb : a = b
    · subst hb; simp
    · rw [if_neg hb]
      by_cases h : a + 1 ≤ b ∧ b < a + 1 + vs.length
      · have h2 : a ≤ b ∧ b < a + (v :: vs).length := by simp; omega
        rw [if_pos h, if_pos h2]
        obtain ⟨n, rfl⟩ : ∃ n, b = a + 1 + n := ⟨b - (a + 1), by omega⟩
        have : a + 1 + n - a = n + 1 := by omega
        simp [this]
      · have h2 : ¬ (a ≤ b ∧ b < a + (v :: vs).length) := by simp; omega
        rw [if_neg h, if_neg h2]

/-! ### The canonical form is kept -/

theorem Memory.risingFrom_mono {lo lo' : Nat} (h : lo' ≤ lo) :
    ∀ (m : Memory w), Memory.risingFrom lo m = true → Memory.risingFrom lo' m = true
  | [], _ => rfl
  | (k, v) :: m, hm => by
    simp only [Memory.risingFrom, Bool.and_eq_true, decide_eq_true_eq] at hm ⊢
    exact ⟨⟨by omega, hm.1.2⟩, hm.2⟩

theorem Memory.risingFrom_erase (a : Nat) : ∀ (m : Memory w) (lo : Nat),
    Memory.risingFrom lo m = true → Memory.risingFrom lo (Memory.erase m a) = true
  | [], _, _ => rfl
  | (k, v) :: m, lo, hm => by
    simp only [Memory.risingFrom, Bool.and_eq_true, decide_eq_true_eq] at hm
    have ih := Memory.risingFrom_erase a m (k + 1) hm.2
    by_cases hk : k = a
    · have : Memory.erase ((k, v) :: m) a = Memory.erase m a := by simp [Memory.erase, hk]
      rw [this]
      exact Memory.risingFrom_mono (by omega) _ ih
    · have : Memory.erase ((k, v) :: m) a = (k, v) :: Memory.erase m a := by simp [Memory.erase, hk]
      rw [this]
      simp only [Memory.risingFrom, Bool.and_eq_true, decide_eq_true_eq]
      exact ⟨hm.1, ih⟩

theorem Memory.risingFrom_insert (a : Nat) (v : BitVec w) (hv : v ≠ 0) : ∀ (m : Memory w) (lo : Nat), lo ≤ a →
    (∀ c ∈ m, c.1 ≠ a) → Memory.risingFrom lo m = true → Memory.risingFrom lo (Memory.insert m a v) = true
  | [], lo, ha, _, _ => by simpa [Memory.insert, Memory.risingFrom, ha] using hv
  | (k, x) :: m, lo, ha, hne, hm => by
    have hk : k ≠ a := hne _ List.mem_cons_self
    simp only [Memory.risingFrom, Bool.and_eq_true, decide_eq_true_eq] at hm
    unfold Memory.insert
    split
    · next hlt =>
      simp only [Memory.risingFrom, Bool.and_eq_true, decide_eq_true_eq]
      exact ⟨hm.1, Memory.risingFrom_insert a v hv m (k + 1) (by simpa using hlt)
        (fun c hc => hne c (List.mem_cons_of_mem _ hc)) hm.2⟩
    · next hlt =>
      simp only [Memory.risingFrom, Bool.and_eq_true, decide_eq_true_eq]
      have : a + 1 ≤ k := by simp at hlt; omega
      exact ⟨⟨ha, by simpa using hv⟩, ⟨this, hm.1.2⟩, hm.2⟩

/-- A write keeps the canonical form. -/
theorem Memory.wf_write (m : Memory w) (a : Nat) (v : BitVec w) (h : Memory.wf m = true) :
    Memory.wf (Memory.write m a v) = true := by
  unfold Memory.write
  split
  · exact Memory.risingFrom_erase a m 0 h
  · next hv =>
    exact Memory.risingFrom_insert a v hv _ 0 (Nat.zero_le _) (Memory.erase_ne m a) (Memory.risingFrom_erase a m 0 h)

/-- Writing a sequence keeps the canonical form. -/
theorem Memory.wf_writeSeq : ∀ (vs : List (BitVec w)) (m : Memory w) (a : Nat), Memory.wf m = true →
    Memory.wf (Memory.writeSeq m a vs) = true
  | [], _, _, h => h
  | v :: vs, m, a, h => Memory.wf_writeSeq vs _ _ (Memory.wf_write m a v h)

theorem Memory.risingFrom_ofList : ∀ (vs : List (BitVec w)) (a lo : Nat), lo ≤ a →
    Memory.risingFrom lo (Memory.ofList a vs) = true
  | [], _, _, _ => rfl
  | v :: vs, a, lo, h => by
    unfold Memory.ofList
    split
    · exact Memory.risingFrom_ofList vs (a + 1) lo (by omega)
    · next hv =>
      simp only [Memory.risingFrom, Bool.and_eq_true, decide_eq_true_eq]
      exact ⟨⟨h, by simpa using hv⟩, Memory.risingFrom_ofList vs (a + 1) (a + 1) (Nat.le_refl _)⟩

/-- A memory made from a list is in canonical form. -/
theorem Memory.wf_ofList (vs : List (BitVec w)) (a : Nat) : Memory.wf (Memory.ofList a vs) = true :=
  Memory.risingFrom_ofList vs a 0 (Nat.zero_le _)

/-! ### The bounds are kept -/

theorem Memory.mem_insert {m : Memory w} {a : Nat} {v : BitVec w} {c : Nat × BitVec w} :
    c ∈ Memory.insert m a v → c = (a, v) ∨ c ∈ m := by
  induction m with
  | nil => intro h; exact .inl (by simpa [Memory.insert] using h)
  | cons d m ih =>
    unfold Memory.insert
    split
    · intro h
      rcases List.mem_cons.mp h with h | h
      · exact .inr (h ▸ List.mem_cons_self)
      · exact (ih h).imp id (List.mem_cons_of_mem _)
    · intro h
      exact (List.mem_cons.mp h)

/-- A write below the size keeps the memory within its size. -/
theorem Memory.within_write {cap : Nat} (m : Memory w) {a : Nat} (v : BitVec w) (ha : a < cap)
    (h : Memory.within cap m = true) : Memory.within cap (Memory.write m a v) = true := by
  simp only [Memory.within, List.all_eq_true, decide_eq_true_eq] at h ⊢
  have he : ∀ c ∈ Memory.erase m a, c.1 < cap := fun c hc => h c (List.mem_filter.mp hc).1
  unfold Memory.write
  split
  · exact he
  · intro c hc
    rcases Memory.mem_insert hc with rfl | hc
    · exact ha
    · exact he c hc

/-- Writing a sequence that ends within the size keeps the memory within its size. -/
theorem Memory.within_writeSeq {cap : Nat} : ∀ (vs : List (BitVec w)) (m : Memory w) (a : Nat), a + vs.length ≤ cap →
    Memory.within cap m = true → Memory.within cap (Memory.writeSeq m a vs) = true
  | [], _, _, _, h => h
  | v :: vs, m, a, ha, h => by
    have ha' : a + (vs.length + 1) ≤ cap := by simpa using ha
    exact Memory.within_writeSeq vs _ (a + 1) (by omega) (Memory.within_write m v (by omega) h)

theorem Memory.within_ofList {cap : Nat} : ∀ (vs : List (BitVec w)) (a : Nat), a + vs.length ≤ cap →
    Memory.within cap (Memory.ofList a vs) = true
  | [], _, _ => rfl
  | v :: vs, a, h => by
    have h' : a + (vs.length + 1) ≤ cap := by simpa using h
    have ih := Memory.within_ofList (cap := cap) vs (a + 1) (by omega)
    unfold Memory.ofList
    split
    · exact ih
    · simp only [Memory.within, List.all_cons, Bool.and_eq_true, decide_eq_true_eq]
      exact ⟨by omega, ih⟩

/-- Memories in canonical form that read the same everywhere are equal: equal contents are equal data. -/
theorem Memory.ext_of_risingFrom : ∀ (m m' : Memory w) (lo lo' : Nat), Memory.risingFrom lo m = true →
    Memory.risingFrom lo' m' = true → (∀ a, Memory.read m a = Memory.read m' a) → m = m'
  | [], [], _, _, _, _, _ => rfl
  | [], (k, v) :: m', _, _, _, h', h => by
    simp only [Memory.risingFrom, Bool.and_eq_true, bne_iff_ne] at h'
    have := h k
    rw [Memory.read_cons, if_pos rfl] at this
    exact absurd this.symm h'.1.2
  | (k, v) :: m, [], _, _, h', _, h => by
    simp only [Memory.risingFrom, Bool.and_eq_true, bne_iff_ne] at h'
    have := h k
    rw [Memory.read_cons, if_pos rfl] at this
    exact absurd this h'.1.2
  | (k, v) :: m, (k', v') :: m', lo, lo', hm, hm', h => by
    simp only [Memory.risingFrom, Bool.and_eq_true, decide_eq_true_eq, bne_iff_ne] at hm hm'
    have below : ∀ (m : Memory w) (lo a : Nat), Memory.risingFrom lo m = true → a < lo → Memory.read m a = 0 := by
      intro m
      induction m with
      | nil => intros; rfl
      | cons c m ih =>
        intro lo a hr hlt
        obtain ⟨j, x⟩ := c
        simp only [Memory.risingFrom, Bool.and_eq_true, decide_eq_true_eq] at hr
        rw [Memory.read_cons, if_neg (by omega)]
        exact ih (j + 1) a hr.2 (by omega)
    have hkk : k = k' := by
      rcases Nat.lt_trichotomy k k' with hlt | heq | hgt
      · have := h k
        rw [Memory.read_cons, if_pos rfl, Memory.read_cons, if_neg (by omega), below m' _ k hm'.2 (by omega)] at this
        exact absurd this hm.1.2
      · exact heq
      · have := h k'
        rw [Memory.read_cons, if_neg (by omega), Memory.read_cons, if_pos rfl, below m _ k' hm.2 (by omega)] at this
        exact absurd this.symm hm'.1.2
    subst hkk
    have hv : v = v' := by
      have := h k
      rwa [Memory.read_cons, if_pos rfl, Memory.read_cons, if_pos rfl] at this
    subst hv
    have : m = m' := by
      apply Memory.ext_of_risingFrom m m' _ _ hm.2 hm'.2
      intro a
      by_cases ha : a < k + 1
      · rw [below m _ a hm.2 ha, below m' _ a hm'.2 ha]
      · have := h a
        rwa [Memory.read_cons, if_neg (by omega), Memory.read_cons, if_neg (by omega)] at this
    rw [this]

theorem Memory.ext_of_wf {m m' : Memory w} (h : Memory.wf m = true) (h' : Memory.wf m' = true)
    (hr : ∀ a, Memory.read m a = Memory.read m' a) : m = m' :=
  Memory.ext_of_risingFrom m m' 0 0 h h' hr

end

/-- The memories after reset are in canonical form. -/
theorem reset_memories_wf : Memory.wf State.reset.lut = true ∧ Memory.wf State.reset.pld = true ∧
    Memory.wf State.reset.frm = true := ⟨rfl, rfl, rfl⟩

/-- A memory of bytes is a list of the host's cells. -/
theorem memory_of_bytes_is_cells : Memory 8 = List Host.Cell := rfl

end Sys2Proof.Machine
end

