-- ==== Sys2Proof/Laws/Ops.lean ====
section
/-! SUPPORT. One lemma for each shared operation that says everything it can do: later proofs cite it instead of
unfolding the operation. -/

namespace Sys2Proof.Machine

/-! ### The endings -/

@[simp] theorem respond_next {v : BitVec 32} {s t : State} : respond v s = .next t ↔ t = s.finish .ok v := by
  simp [respond, eq_comm]

@[simp] theorem raise_next {c : Status} {s t : State} : raise c s = .next t ↔ t = s.finish c 0 := by
  simp [raise, eq_comm]

@[simp] theorem respondQuietly_next {v : BitVec 32} {s t : State} :
    respondQuietly v s = .next t ↔ t = s.answer .ok v := by
  simp [respondQuietly, eq_comm]

@[simp] theorem raiseQuietly_next {c : Status} {s t : State} : raiseQuietly c s = .next t ↔ t = s.answer c 0 := by
  simp [raiseQuietly, eq_comm]

/-! ### The shared checks -/

/-- With a table the command goes on; without one it ends with STATE_NO_LUT and nothing else changes. -/
theorem requireTable_next {s t : State} {r : Result} (h : requireTable s r = .next t) :
    (s.lutv = true ∧ r = .next t) ∨ (s.lutv = false ∧ t = s.finish .stateNoLut 0) := by
  unfold requireTable at h
  split at h
  · next hl => exact .inl ⟨hl, h⟩
  · next hl => exact .inr ⟨by simpa using hl, raise_next.mp h⟩

@[simp] theorem requireTable_of_table {s : State} (r : Result) (h : s.lutv = true) : requireTable s r = r := by
  simp [requireTable, h]

@[simp] theorem requireTable_of_no_table {s : State} (r : Result) (h : s.lutv = false) :
    requireTable s r = raise .stateNoLut s := by
  simp [requireTable, h]

/-- With a size in force the command goes on; without one it ends with STATE_NO_SIZE and nothing else changes. -/
theorem requireSize_next {s t : State} {r : Result} (h : requireSize s r = .next t) :
    (s.bufsz ≠ 0 ∧ r = .next t) ∨ (s.bufsz = 0 ∧ t = s.finish .stateNoSize 0) := by
  unfold requireSize at h
  split at h
  · next hb => exact .inr ⟨hb, raise_next.mp h⟩
  · next hb => exact .inl ⟨hb, h⟩

theorem requireSize_of_size {s : State} (r : Result) (h : s.bufsz ≠ 0) : requireSize s r = r := by
  simp only [requireSize, if_neg h]

theorem requireSize_of_no_size {s : State} (r : Result) (h : s.bufsz = 0) :
    requireSize s r = raise .stateNoSize s := by
  simp only [requireSize, if_pos h]

/-- An access to PLD that gives a next state lay inside it. -/
theorem accessPld_next {n : Nat} {t : State} {r : Result} (h : accessPld n r = .next t) : n ≤ 256 ∧ r = .next t := by
  unfold accessPld at h
  split at h
  · next hn => exact ⟨hn, h⟩
  · cases h

theorem accessPld_of_le {n : Nat} (r : Result) (h : n ≤ 256) : accessPld n r = r := by
  simp [accessPld, Config.pldCap, h]

/-- An access to FRM that gives a next state lay inside it. -/
theorem accessFrm_next {n : Nat} {t : State} {r : Result} (h : accessFrm n r = .next t) : n ≤ 262 ∧ r = .next t := by
  unfold accessFrm at h
  split at h
  · next hn => exact ⟨hn, h⟩
  · cases h

theorem accessFrm_of_le {n : Nat} (r : Result) (h : n ≤ 262) : accessFrm n r = r := by
  simp [accessFrm, Config.frmCap, h]

@[simp] theorem frameLen_eq (n : Nat) : frameLen n = n + 6 := by
  simp only [frameLen, Config.hdrSize, Config.crcSize]
  omega

theorem delivers_iff {s : State} {n : Nat} : s.delivers n = true ↔ n ≤ s.rxq.length := by
  simp [State.delivers]

/-! ### The next event and one step -/

/-- What the block takes up: nothing, RESET, or a command while it does not wait, to its end or with RESET during it. -/
theorem fetch_cases (s : State) :
    (fetch s = .idle ∧ (s.inbox = [] ∨ (s.waiting = true ∧ ∃ cw rest, s.inbox = .command cw :: rest))) ∨
    (∃ rest, (s.inbox = .reset :: rest ∨ (s.waiting = true ∧ ∃ cw k, s.inbox = .resetDuring cw k :: rest)) ∧
      fetch s = .reset (s.setInbox rest)) ∨
    (∃ cw rest, s.inbox = .command cw :: rest ∧ s.waiting = false ∧ fetch s = .command cw (s.setInbox rest)) ∨
    (∃ cw k rest, s.inbox = .resetDuring cw k :: rest ∧ s.waiting = false ∧
      fetch s = .resetDuring cw k (s.setInbox rest)) := by
  unfold fetch
  split
  · next h => exact .inl ⟨rfl, .inl h⟩
  · next rest h => exact .inr (.inl ⟨rest, .inl h, rfl⟩)
  · next cw rest h =>
    by_cases hw : s.waiting = true
    · exact .inl ⟨by simp [hw], .inr ⟨hw, cw, rest, h⟩⟩
    · exact .inr (.inr (.inl ⟨cw, rest, h, by simpa using hw, by simp [hw]⟩))
  · next cw k rest h =>
    by_cases hw : s.waiting = true
    · exact .inr (.inl ⟨rest, .inr ⟨hw, cw, k, h⟩, by simp [hw]⟩)
    · exact .inr (.inr (.inr ⟨cw, k, rest, h, by simpa using hw, by simp [hw]⟩))

/-- RESET during an instruction: the instruction runs on the bytes that came before the RESET, the block is reset, what
it took and sent is gone and sent, and a stop of the instruction stays a stop. -/
theorem abandon_cases (i : Instr) (k : Nat) (s : State) :
    (∃ t, exec i (s.setEnv (s.rxq.take k) s.txlog) = .next t ∧ abandon i k s =
      .next (t.setEnv (t.rxq ++ s.rxq.drop k) (t.txlog.take (s.txlog.length + k))).applyReset) ∨
    (∃ r, exec i (s.setEnv (s.rxq.take k) s.txlog) = .fault r ∧ abandon i k s = .fault r) ∨
    (∃ r, exec i (s.setEnv (s.rxq.take k) s.txlog) = .refused r ∧ abandon i k s = .refused r) := by
  unfold abandon
  split
  · next t h => exact .inl ⟨t, h, rfl⟩
  · next r h => exact .inr (.inl ⟨r, h, rfl⟩)
  · next r h => exact .inr (.inr ⟨r, h, rfl⟩)

/-- What a step can do: nothing, RESET, one instruction, a decode error, or RESET during one of these two. -/
theorem step_cases {s : State} {r : Result} (h : step s = r) :
    (r = .next s ∧ (s.inbox = [] ∨ (s.waiting = true ∧ ∃ cw rest, s.inbox = .command cw :: rest))) ∨
    (∃ rest, (s.inbox = .reset :: rest ∨ (s.waiting = true ∧ ∃ cw k, s.inbox = .resetDuring cw k :: rest)) ∧
      r = .next (s.setInbox rest).applyReset) ∨
    (∃ cw rest i, s.inbox = .command cw :: rest ∧ s.waiting = false ∧ decode cw = .ok i ∧
      r = exec i (s.setInbox rest)) ∨
    (∃ cw rest e, s.inbox = .command cw :: rest ∧ s.waiting = false ∧ decode cw = .error e ∧
      r = raise (decodeStatus e) (s.setInbox rest)) ∨
    (∃ cw k rest i, s.inbox = .resetDuring cw k :: rest ∧ s.waiting = false ∧ decode cw = .ok i ∧
      r = abandon i k (s.setInbox rest)) ∨
    (∃ cw k rest e, s.inbox = .resetDuring cw k :: rest ∧ s.waiting = false ∧ decode cw = .error e ∧
      r = .next (s.setInbox rest).applyReset) := by
  subst h
  rcases fetch_cases s with ⟨hf, hi⟩ | ⟨rest, hi, hf⟩ | ⟨cw, rest, hi, hw, hf⟩ | ⟨cw, k, rest, hi, hw, hf⟩
  · exact .inl ⟨by simp [step, hf], hi⟩
  · exact .inr (.inl ⟨rest, hi, by simp [step, hf]⟩)
  · cases hd : decode cw with
    | ok i => exact .inr (.inr (.inl ⟨cw, rest, i, hi, hw, hd, by simp [step, hf, present, hd]⟩))
    | error e => exact .inr (.inr (.inr (.inl ⟨cw, rest, e, hi, hw, hd, by simp [step, hf, present, hd]⟩)))
  · cases hd : decode cw with
    | ok i => exact .inr (.inr (.inr (.inr (.inl
        ⟨cw, k, rest, i, hi, hw, hd, by simp [step, hf, presentAndReset, hd]⟩))))
    | error e => exact .inr (.inr (.inr (.inr (.inr
        ⟨cw, k, rest, e, hi, hw, hd, by simp [step, hf, presentAndReset, hd]⟩))))

/-! ### Deserialising and accepting a handshake -/

/-- The two validations in their order (R159). -/
theorem frameError_cases (size : Nat) (s : State) :
    (crc16 s.lut (Memory.readSeq s.frm 0 (size + 6)) ≠ 0 ∧ frameError size s = some .integCrc) ∨
    (crc16 s.lut (Memory.readSeq s.frm 0 (size + 6)) = 0 ∧ headerConsistent (frameHeader s) = false ∧
      frameError size s = some .integHdrchk) ∨
    (crc16 s.lut (Memory.readSeq s.frm 0 (size + 6)) = 0 ∧ headerConsistent (frameHeader s) = true ∧
      frameError size s = none) := by
  unfold frameError
  rw [frameLen_eq]
  split
  · next h => exact .inl ⟨h, rfl⟩
  · next h =>
    split
    · next hc => exact .inr (.inr ⟨not_not.mp h, hc, rfl⟩)
    · next hc => exact .inr (.inl ⟨not_not.mp h, by simpa using hc, rfl⟩)

/-- The two option checks in their order (R181). -/
theorem optError_cases (ackf : BitVec 8) (psize : BitVec 16) :
    (7 < ackf.toNat ∧ optError ackf psize = some .optAckf) ∨
    (ackf.toNat ≤ 7 ∧ psize ∉ payloadSizes ∧ optError ackf psize = some .optPsize) ∨
    (ackf.toNat ≤ 7 ∧ psize ∈ payloadSizes ∧ optError ackf psize = none) := by
  unfold optError
  split
  · next h => exact .inl ⟨h, rfl⟩
  · next h =>
    by_cases hp : psize ∈ payloadSizes
    · exact .inr (.inr ⟨by omega, hp, by simp [hp]⟩)
    · exact .inr (.inl ⟨by omega, hp, by simp [hp]⟩)

/-- What an accepted handshake frame can end with, in the state with the 38 bytes received. -/
theorem acceptHandshake_cases (s : State) :
    (∃ c, frameError 32 s = some c ∧ acceptHandshake s = raise c s) ∨
    (∃ c, frameError 32 s = none ∧
      optError (optExtract (Memory.read (commitFrame 32 s).pld)).ackf
        (optExtract (Memory.read (commitFrame 32 s).pld)).psize = some c ∧
      acceptHandshake s = raise c (commitFrame 32 s)) ∨
    (frameError 32 s = none ∧
      optError (optExtract (Memory.read (commitFrame 32 s).pld)).ackf
        (optExtract (Memory.read (commitFrame 32 s).pld)).psize = none ∧
      acceptHandshake s = respond ((optExtract (Memory.read (commitFrame 32 s).pld)).psize.setWidth 32)
        ((((commitFrame 32 s).setOptions (optExtract (Memory.read (commitFrame 32 s).pld))).setBufsz
          (optExtract (Memory.read (commitFrame 32 s).pld)).psize).startSession)) := by
  unfold acceptHandshake
  rw [show Config.hskSize = 32 from rfl]
  cases hf : frameError 32 s with
  | some c => exact .inl ⟨c, rfl, rfl⟩
  | none =>
    cases ho : optError (optExtract (Memory.read (commitFrame 32 s).pld)).ackf
        (optExtract (Memory.read (commitFrame 32 s).pld)).psize with
    | some c => exact .inr (.inl ⟨c, rfl, rfl, by simp only [acceptOptions, ho]⟩)
    | none => exact .inr (.inr ⟨rfl, rfl, by simp only [acceptOptions, ho]⟩)

/-! ### The pseudo-command payload_create -/

/-- There are PLDW commands for the data exactly where its last index is one of a payload byte, and then the first is
the first byte's. -/
theorem payloadWrites_cons (i : Nat) (d : BitVec 8) (ds : List (BitVec 8)) :
    (i + ds.length < 256 ∧ ∃ is, payloadWrites (i + 1) ds = some is ∧
      payloadWrites i (d :: ds) = some (.pldw (BitVec.ofNat 8 i) d :: is)) ∨
    (256 ≤ i + ds.length ∧ payloadWrites i (d :: ds) = none) := by
  induction ds generalizing i d with
  | nil =>
    by_cases h : i < 256
    · exact .inl ⟨h, [], rfl, by simp [payloadWrites, Config.pldCap, h]⟩
    · exact .inr ⟨Nat.not_lt.mp h, by simp [payloadWrites, Config.pldCap, h]⟩
  | cons e es ih =>
    rcases ih (i + 1) e with ⟨h, is, _, he⟩ | ⟨h, he⟩
    · refine .inl ⟨by simp only [List.length_cons]; omega, _, he, ?_⟩
      rw [payloadWrites, he, if_pos (show i < Config.pldCap by simp only [Config.pldCap]; omega)]
      rfl
    · refine .inr ⟨by simp only [List.length_cons]; omega, ?_⟩
      rw [payloadWrites, he]
      simp

/-- `payload_create` has a sequence exactly for data of at most 256 bytes. -/
theorem pseudoPayloadCreate_eq_none_iff (ds : List (BitVec 8)) : pseudoPayloadCreate ds = none ↔ 256 < ds.length := by
  cases ds with
  | nil => simp [pseudoPayloadCreate, payloadWrites]
  | cons d ds =>
    rcases payloadWrites_cons 0 d ds with ⟨h, is, _, he⟩ | ⟨h, he⟩ <;>
      simp only [pseudoPayloadCreate, he, Option.map_some, Option.map_none, List.length_cons, reduceCtorEq, true_iff,
        false_iff] <;> omega

/-! ### CRC folds -/

@[simp] theorem crc16_nil (lut : Memory 16) : crc16 lut [] = 0 := rfl

/-- A sequence in two parts: the second part's fold goes on from the first part's CRC. -/
theorem crc16_append (lut : Memory 16) (d e : List (BitVec 8)) :
    crc16 lut (d ++ e) = e.foldl (crcStep lut) (crc16 lut d) := by
  simp [crc16, List.foldl_append]

end Sys2Proof.Machine
end

