-- ==== Sys2Proof/Laws/PerInstr.lean ====
section
/-! SUPPORT. A statement for all instructions, made per instruction: the encoding of an instruction has the fixed bits of
its row of spec/opcode_table.json, and the row's mask leaves exactly its operands free. -/

namespace Sys2Proof.Laws

/-- `match` and `mask` of an instruction's row in spec/opcode_table.json. -/
def rowOf : Instr → Word × Word
  | .lutgen _ => (0x01000000#32, 0xFFFF0000#32)
  | .crcinit => (0x02000000#32, 0xFFFFFFFF#32)
  | .crcb _ => (0x03000000#32, 0xFFFFFF00#32)
  | .lutrd _ => (0x04000000#32, 0xFFFFFF00#32)
  | .hdrmk _ _ _ _ => (0x10000000#32, 0xFFE00000#32)
  | .hdrchk => (0x11000000#32, 0xFFFFFFFF#32)
  | .hdrpk => (0x12000000#32, 0xFFFFFFFF#32)
  | .setsz _ => (0x20000000#32, 0xFFFFFFFC#32)
  | .pldclr => (0x21000000#32, 0xFFFFFFFF#32)
  | .pldw _ _ => (0x22000000#32, 0xFFFF0000#32)
  | .pldrd _ => (0x23000000#32, 0xFFFFFF00#32)
  | .ser _ => (0x24000000#32, 0xFFFF0000#32)
  | .des => (0x25000000#32, 0xFFFFFFFF#32)
  | .frmclr => (0x26000000#32, 0xFFFFFFFF#32)
  | .frmb _ => (0x27000000#32, 0xFFFFFF00#32)
  | .frmrd _ => (0x28000000#32, 0xFFFF0000#32)
  | .tx => (0x30000000#32, 0xFFFFFFFF#32)
  | .rx => (0x31000000#32, 0xFFFFFFFF#32)
  | .hsk => (0x32000000#32, 0xFFFFFFFF#32)
  | .sessend => (0x33000000#32, 0xFFFFFFFF#32)
  | .rd _ => (0x3F000000#32, 0xFFFFFF00#32)
  | .wirehdrConnect _ _ _ _ => (0x00000000#32, 0xC0000000#32)
  | .wirehdrDisconnect _ _ _ _ => (0x40000000#32, 0xC0000000#32)
  | .wirehdrData _ _ _ _ => (0x80000000#32, 0xC0000000#32)
  | .wirehdrError _ _ _ _ => (0xC0000000#32, 0xC0000000#32)

/-- The fixed bits of an encoding are its row's. -/
def EncodingMatchesRow.Statement (i : Instr) : Prop := encode i &&& (rowOf i).2 = (rowOf i).1

/-- An operand of `k` bits at bit `n`, where the mask has no bit, does not change what the mask shows. -/
theorem field_outside {k : Nat} (v : BitVec k) (n : Nat) {mask x shown : Word} (hx : x &&& mask = shown)
    (h : ∀ i, i < k → mask.getLsbD (n + i) = false) : (x ||| v.setWidth 32 <<< n) &&& mask = shown := by
  subst hx
  apply BitVec.eq_of_getLsbD_eq
  intro j hj
  simp only [BitVec.getLsbD_and, BitVec.getLsbD_or, BitVec.getLsbD_shiftLeft, BitVec.getLsbD_setWidth]
  by_cases hn : n ≤ j ∧ j - n < k
  · have := h (j - n) hn.2
    rw [show n + (j - n) = j by omega] at this
    simp [this]
  · by_cases h1 : j < n
    · simp [h1]
    · have : v.getLsbD (j - n) = false := BitVec.getLsbD_of_ge _ _ (by omega)
      simp [this]

/-- The same for an operand at bit 0. -/
theorem low_field_outside {k : Nat} (v : BitVec k) {mask x shown : Word} (hx : x &&& mask = shown)
    (h : ∀ i, i < k → mask.getLsbD i = false) : (x ||| v.setWidth 32) &&& mask = shown := by
  simpa using field_outside v 0 hx (by simpa using h)

/-- The opcode is what the mask of a header row shows. -/
theorem header_row (op len : BitVec 2) (ack : BitVec 1) (pn : BitVec 11) (ck : BitVec 16) :
    headerWord op len ack pn ck &&& 0xC0000000#32 = op.setWidth 32 <<< 30 :=
  low_field_outside ck (field_outside pn 16 (field_outside ack 27 (field_outside len 28 (by
    revert op; decide) (by decide)) (by decide)) (by decide)) (by decide)

theorem EncodingMatchesRow.lutgen (poly : BitVec 16) : EncodingMatchesRow.Statement (.lutgen poly) := by
  dsimp only [EncodingMatchesRow.Statement, rowOf, encode]
  exact low_field_outside poly (by decide) (by decide)

theorem EncodingMatchesRow.crcinit : EncodingMatchesRow.Statement (.crcinit) := rfl

theorem EncodingMatchesRow.crcb (b : BitVec 8) : EncodingMatchesRow.Statement (.crcb b) := by
  dsimp only [EncodingMatchesRow.Statement, rowOf, encode]
  exact low_field_outside b (by decide) (by decide)

theorem EncodingMatchesRow.lutrd (i : BitVec 8) : EncodingMatchesRow.Statement (.lutrd i) := by
  dsimp only [EncodingMatchesRow.Statement, rowOf, encode]
  exact low_field_outside i (by decide) (by decide)

theorem EncodingMatchesRow.hdrmk (op len : BitVec 2) (ack : BitVec 1) (pn16 : BitVec 16) :
    EncodingMatchesRow.Statement (.hdrmk op len ack pn16) := by
  dsimp only [EncodingMatchesRow.Statement, rowOf, encode]
  exact low_field_outside pn16 (field_outside ack 16 (field_outside len 17 (field_outside op 19 (by decide) (by decide))
    (by decide)) (by decide)) (by decide)

theorem EncodingMatchesRow.hdrchk : EncodingMatchesRow.Statement (.hdrchk) := rfl

theorem EncodingMatchesRow.hdrpk : EncodingMatchesRow.Statement (.hdrpk) := rfl

theorem EncodingMatchesRow.setsz (cls : BitVec 2) : EncodingMatchesRow.Statement (.setsz cls) := by
  dsimp only [EncodingMatchesRow.Statement, rowOf, encode]
  exact low_field_outside cls (by decide) (by decide)

theorem EncodingMatchesRow.pldclr : EncodingMatchesRow.Statement (.pldclr) := rfl

theorem EncodingMatchesRow.pldw (idx b : BitVec 8) : EncodingMatchesRow.Statement (.pldw idx b) := by
  dsimp only [EncodingMatchesRow.Statement, rowOf, encode]
  exact low_field_outside b (field_outside idx 8 (by decide) (by decide)) (by decide)

theorem EncodingMatchesRow.pldrd (idx : BitVec 8) : EncodingMatchesRow.Statement (.pldrd idx) := by
  dsimp only [EncodingMatchesRow.Statement, rowOf, encode]
  exact low_field_outside idx (by decide) (by decide)

theorem EncodingMatchesRow.ser (cap : BitVec 16) : EncodingMatchesRow.Statement (.ser cap) := by
  dsimp only [EncodingMatchesRow.Statement, rowOf, encode]
  exact low_field_outside cap (by decide) (by decide)

theorem EncodingMatchesRow.des : EncodingMatchesRow.Statement (.des) := rfl

theorem EncodingMatchesRow.frmclr : EncodingMatchesRow.Statement (.frmclr) := rfl

theorem EncodingMatchesRow.frmb (b : BitVec 8) : EncodingMatchesRow.Statement (.frmb b) := by
  dsimp only [EncodingMatchesRow.Statement, rowOf, encode]
  exact low_field_outside b (by decide) (by decide)

theorem EncodingMatchesRow.frmrd (idx : BitVec 16) : EncodingMatchesRow.Statement (.frmrd idx) := by
  dsimp only [EncodingMatchesRow.Statement, rowOf, encode]
  exact low_field_outside idx (by decide) (by decide)

theorem EncodingMatchesRow.tx : EncodingMatchesRow.Statement (.tx) := rfl

theorem EncodingMatchesRow.rx : EncodingMatchesRow.Statement (.rx) := rfl

theorem EncodingMatchesRow.hsk : EncodingMatchesRow.Statement (.hsk) := rfl

theorem EncodingMatchesRow.sessend : EncodingMatchesRow.Statement (.sessend) := rfl

theorem EncodingMatchesRow.rd (r : BitVec 8) : EncodingMatchesRow.Statement (.rd r) := by
  dsimp only [EncodingMatchesRow.Statement, rowOf, encode]
  exact low_field_outside r (by decide) (by decide)

theorem EncodingMatchesRow.wirehdrConnect (len : BitVec 2) (ack : BitVec 1) (pn : BitVec 11) (ck : BitVec 16) :
    EncodingMatchesRow.Statement (.wirehdrConnect len ack pn ck) :=
  header_row 0 len ack pn ck

theorem EncodingMatchesRow.wirehdrDisconnect (len : BitVec 2) (ack : BitVec 1) (pn : BitVec 11) (ck : BitVec 16) :
    EncodingMatchesRow.Statement (.wirehdrDisconnect len ack pn ck) :=
  header_row 1 len ack pn ck

theorem EncodingMatchesRow.wirehdrData (len : BitVec 2) (ack : BitVec 1) (pn : BitVec 11) (ck : BitVec 16) :
    EncodingMatchesRow.Statement (.wirehdrData len ack pn ck) :=
  header_row 2 len ack pn ck

theorem EncodingMatchesRow.wirehdrError (len : BitVec 2) (ack : BitVec 1) (pn : BitVec 11) (ck : BitVec 16) :
    EncodingMatchesRow.Statement (.wirehdrError len ack pn ck) :=
  header_row 3 len ack pn ck


end Sys2Proof.Laws
end

