-- ==== Sys2Proof/Tests/Slice0.lean ====
section
/-! SUPPORT. The model's own tests. Every expected value is from spec/95_test_vectors.md (the vector is named) or from the
tables of spec/30_encoding.md; below them, for each statement with premises, a state and operands that meet them. -/

namespace Sys2Proof.Tests

open Sys2Proof.Machine

-- One theorem at a time: many kernel evaluations at once ask for more memory than check.sh allows.
set_option Elab.async false

/-! ### WellFormed: the one check -/

/-- A CONNECT header whose first byte is 0x01 (packet number 0x100) has LUTGEN's code and is refused. -/
theorem test_wellFormed_refuses_assigned_code : (Instr.wirehdrConnect 0 0 0x100 0).wellFormed = false := by decide

/-- The first bytes 0x33 and 0x3F are assigned too, 0x34 is not. -/
theorem test_wellFormed_boundaries :
    (Instr.wirehdrConnect 3 0 0x300 0).wellFormed = false ∧ (Instr.wirehdrConnect 3 1 0x700 0).wellFormed = false ∧
    (Instr.wirehdrConnect 3 0 0x400 0).wellFormed = true := by decide

/-! ### Decode: words written out from R86, R89, R93, R101 -/

theorem test_decode_lutgen : decode 0b00000001_00000000_0001000000100001#32 = .ok (.lutgen 0x1021) := by decide
theorem test_decode_crcinit : decode 0b00000010_00000000_0000000000000000#32 = .ok .crcinit := by decide
theorem test_decode_crcb : decode 0b00000011_00000000_00000000_10100101#32 = .ok (.crcb 0xA5) := by decide
theorem test_decode_lutrd : decode 0b00000100_00000000_00000000_10000000#32 = .ok (.lutrd 0x80) := by decide
theorem test_decode_hdrmk : decode 0b00010000_000_10_01_1_0000010000000001#32 = .ok (.hdrmk 2 1 1 0x0401) := by decide
theorem test_decode_hdrchk : decode 0b00010001_00000000_0000000000000000#32 = .ok .hdrchk := by decide
theorem test_decode_hdrpk : decode 0b00010010_00000000_0000000000000000#32 = .ok .hdrpk := by decide
theorem test_decode_setsz : decode 0b00100000_00000000_00000000_000000_10#32 = .ok (.setsz 2) := by decide
theorem test_decode_pldclr : decode 0b00100001_00000000_0000000000000000#32 = .ok .pldclr := by decide
theorem test_decode_pldw : decode 0b00100010_00000000_00011111_01011010#32 = .ok (.pldw 31 0x5A) := by decide
theorem test_decode_pldrd : decode 0b00100011_00000000_00000000_11111111#32 = .ok (.pldrd 255) := by decide
theorem test_decode_ser : decode 0b00100100_00000000_0000000100000110#32 = .ok (.ser 262) := by decide
theorem test_decode_des : decode 0b00100101_00000000_0000000000000000#32 = .ok .des := by decide
theorem test_decode_frmclr : decode 0b00100110_00000000_0000000000000000#32 = .ok .frmclr := by decide
theorem test_decode_frmb : decode 0b00100111_00000000_00000000_11101110#32 = .ok (.frmb 0xEE) := by decide
theorem test_decode_frmrd : decode 0b00101000_00000000_0000000100000101#32 = .ok (.frmrd 261) := by decide
theorem test_decode_tx : decode 0b00110000_00000000_0000000000000000#32 = .ok .tx := by decide
theorem test_decode_rx : decode 0b00110001_00000000_0000000000000000#32 = .ok .rx := by decide
theorem test_decode_hsk : decode 0b00110010_00000000_0000000000000000#32 = .ok .hsk := by decide
theorem test_decode_sessend : decode 0b00110011_00000000_0000000000000000#32 = .ok .sessend := by decide
theorem test_decode_rd : decode 0b00111111_00000000_00000000_00001110#32 = .ok (.rd 14) := by decide

/-- V-FRM-1's header, `00 00 ff ff`. -/
theorem test_decode_wirehdrConnect :
    decode 0b00_00_0_00000000000_1111111111111111#32 = .ok (.wirehdrConnect 0 0 0 0xFFFF) := by decide
/-- V-SRC-1's header, `58 01 a7 fe`. -/
theorem test_decode_wirehdrDisconnect :
    decode 0b01_01_1_00000000001_1010011111111110#32 = .ok (.wirehdrDisconnect 1 1 1 0xA7FE) := by decide
/-- V-FRM-2's header, `90 05 6f fa`. -/
theorem test_decode_wirehdrData :
    decode 0b10_01_0_00000000101_0110111111111010#32 = .ok (.wirehdrData 1 0 5 0x6FFA) := by decide
/-- V-FRM-4's header, `f4 00 0b ff`. -/
theorem test_decode_wirehdrError :
    decode 0b11_11_0_10000000000_0000101111111111#32 = .ok (.wirehdrError 3 0 0x400 0x0BFF) := by decide

/-- V-DEC-4 to V-DEC-10: a reserved bit set in each of the six formats. -/
theorem test_decode_reserved_bits :
    [0x02000001#32, 0x03000100, 0x01011021, 0x20000004, 0x10200000, 0x22010000, 0x3F000100].map decode =
      List.replicate 7 (.error .reservedBits) := by decide

/-- V-DEC-1 to V-DEC-3: the command decoder of R103 has no row for these codes. -/
theorem test_decode_unassigned :
    [0x00000000#32, 0x05000000, 0xFF000000].map decodeCommand = List.replicate 3 (.error .illegalCmd) := by decide

/-- No word is an instance of two command rows: two rows' patterns differ under their common mask. -/
theorem test_rows_do_not_overlap :
    commandRows.Pairwise (fun r q => r.pattern &&& (r.mask &&& q.mask) ≠ q.pattern &&& (r.mask &&& q.mask)) := by decide

/-- The assigned codes are the codes of the 21 rows. -/
theorem test_assignedCodes : commandRows.map (fun r => codeOf r.pattern) = assignedCodes := by decide

/-- The host's numbering: bit 0 of the word is bit 0 of the number; a short one has zeros above it. -/
theorem test_decodeTableWord : decodeTableWord 32 0x01001021 = some (.lutgen 0x1021) ∧
    decodeTableWord 32 0x02000001 = none ∧ decodeTableWord 16 0x01001021 = some (.wirehdrConnect 0 0 0 0x1021) := by decide

/-! ### States and a helper -/

/-- Entries 0 to 31. -/
def table1021_0 : Memory 16 :=
  [(1, 0x1021), (2, 0x2042), (3, 0x3063), (4, 0x4084), (5, 0x50A5), (6, 0x60C6), (7, 0x70E7), (8, 0x8108),
   (9, 0x9129), (10, 0xA14A), (11, 0xB16B), (12, 0xC18C), (13, 0xD1AD), (14, 0xE1CE), (15, 0xF1EF), (16, 0x1231),
   (17, 0x0210), (18, 0x3273), (19, 0x2252), (20, 0x52B5), (21, 0x4294), (22, 0x72F7), (23, 0x62D6), (24, 0x9339),
   (25, 0x8318), (26, 0xB37B), (27, 0xA35A), (28, 0xD3BD), (29, 0xC39C), (30, 0xF3FF), (31, 0xE3DE)]

/-- Entries 32 to 63. -/
def table1021_1 : Memory 16 :=
  [(32, 0x2462), (33, 0x3443), (34, 0x0420), (35, 0x1401), (36, 0x64E6), (37, 0x74C7), (38, 0x44A4), (39, 0x5485),
   (40, 0xA56A), (41, 0xB54B), (42, 0x8528), (43, 0x9509), (44, 0xE5EE), (45, 0xF5CF), (46, 0xC5AC), (47, 0xD58D),
   (48, 0x3653), (49, 0x2672), (50, 0x1611), (51, 0x0630), (52, 0x76D7), (53, 0x66F6), (54, 0x5695), (55, 0x46B4),
   (56, 0xB75B), (57, 0xA77A), (58, 0x9719), (59, 0x8738), (60, 0xF7DF), (61, 0xE7FE), (62, 0xD79D), (63, 0xC7BC)]

/-- Entries 64 to 95. -/
def table1021_2 : Memory 16 :=
  [(64, 0x48C4), (65, 0x58E5), (66, 0x6886), (67, 0x78A7), (68, 0x0840), (69, 0x1861), (70, 0x2802), (71, 0x3823),
   (72, 0xC9CC), (73, 0xD9ED), (74, 0xE98E), (75, 0xF9AF), (76, 0x8948), (77, 0x9969), (78, 0xA90A), (79, 0xB92B),
   (80, 0x5AF5), (81, 0x4AD4), (82, 0x7AB7), (83, 0x6A96), (84, 0x1A71), (85, 0x0A50), (86, 0x3A33), (87, 0x2A12),
   (88, 0xDBFD), (89, 0xCBDC), (90, 0xFBBF), (91, 0xEB9E), (92, 0x9B79), (93, 0x8B58), (94, 0xBB3B), (95, 0xAB1A)]

/-- Entries 96 to 127. -/
def table1021_3 : Memory 16 :=
  [(96, 0x6CA6), (97, 0x7C87), (98, 0x4CE4), (99, 0x5CC5), (100, 0x2C22), (101, 0x3C03), (102, 0x0C60), (103, 0x1C41),
   (104, 0xEDAE), (105, 0xFD8F), (106, 0xCDEC), (107, 0xDDCD), (108, 0xAD2A), (109, 0xBD0B), (110, 0x8D68), (111, 0x9D49),
   (112, 0x7E97), (113, 0x6EB6), (114, 0x5ED5), (115, 0x4EF4), (116, 0x3E13), (117, 0x2E32), (118, 0x1E51), (119, 0x0E70),
   (120, 0xFF9F), (121, 0xEFBE), (122, 0xDFDD), (123, 0xCFFC), (124, 0xBF1B), (125, 0xAF3A), (126, 0x9F59), (127, 0x8F78)]

/-- Entries 128 to 159. -/
def table1021_4 : Memory 16 :=
  [(128, 0x9188), (129, 0x81A9), (130, 0xB1CA), (131, 0xA1EB), (132, 0xD10C), (133, 0xC12D), (134, 0xF14E), (135, 0xE16F),
   (136, 0x1080), (137, 0x00A1), (138, 0x30C2), (139, 0x20E3), (140, 0x5004), (141, 0x4025), (142, 0x7046), (143, 0x6067),
   (144, 0x83B9), (145, 0x9398), (146, 0xA3FB), (147, 0xB3DA), (148, 0xC33D), (149, 0xD31C), (150, 0xE37F), (151, 0xF35E),
   (152, 0x02B1), (153, 0x1290), (154, 0x22F3), (155, 0x32D2), (156, 0x4235), (157, 0x5214), (158, 0x6277), (159, 0x7256)]

/-- Entries 160 to 191. -/
def table1021_5 : Memory 16 :=
  [(160, 0xB5EA), (161, 0xA5CB), (162, 0x95A8), (163, 0x8589), (164, 0xF56E), (165, 0xE54F), (166, 0xD52C), (167, 0xC50D),
   (168, 0x34E2), (169, 0x24C3), (170, 0x14A0), (171, 0x0481), (172, 0x7466), (173, 0x6447), (174, 0x5424), (175, 0x4405),
   (176, 0xA7DB), (177, 0xB7FA), (178, 0x8799), (179, 0x97B8), (180, 0xE75F), (181, 0xF77E), (182, 0xC71D), (183, 0xD73C),
   (184, 0x26D3), (185, 0x36F2), (186, 0x0691), (187, 0x16B0), (188, 0x6657), (189, 0x7676), (190, 0x4615), (191, 0x5634)]

/-- Entries 192 to 223. -/
def table1021_6 : Memory 16 :=
  [(192, 0xD94C), (193, 0xC96D), (194, 0xF90E), (195, 0xE92F), (196, 0x99C8), (197, 0x89E9), (198, 0xB98A), (199, 0xA9AB),
   (200, 0x5844), (201, 0x4865), (202, 0x7806), (203, 0x6827), (204, 0x18C0), (205, 0x08E1), (206, 0x3882), (207, 0x28A3),
   (208, 0xCB7D), (209, 0xDB5C), (210, 0xEB3F), (211, 0xFB1E), (212, 0x8BF9), (213, 0x9BD8), (214, 0xABBB), (215, 0xBB9A),
   (216, 0x4A75), (217, 0x5A54), (218, 0x6A37), (219, 0x7A16), (220, 0x0AF1), (221, 0x1AD0), (222, 0x2AB3), (223, 0x3A92)]

/-- Entries 224 to 255. -/
def table1021_7 : Memory 16 :=
  [(224, 0xFD2E), (225, 0xED0F), (226, 0xDD6C), (227, 0xCD4D), (228, 0xBDAA), (229, 0xAD8B), (230, 0x9DE8), (231, 0x8DC9),
   (232, 0x7C26), (233, 0x6C07), (234, 0x5C64), (235, 0x4C45), (236, 0x3CA2), (237, 0x2C83), (238, 0x1CE0), (239, 0x0CC1),
   (240, 0xEF1F), (241, 0xFF3E), (242, 0xCF5D), (243, 0xDF7C), (244, 0xAF9B), (245, 0xBFBA), (246, 0x8FD9), (247, 0x9FF8),
   (248, 0x6E17), (249, 0x7E36), (250, 0x4E55), (251, 0x5E74), (252, 0x2E93), (253, 0x3EB2), (254, 0x0ED1), (255, 0x1EF0)]

/-- The table of spec/95_test_vectors.md section 2.1, its zero entry 0 left out. -/
def table1021 : Memory 16 :=
  table1021_0 ++ (table1021_1 ++ (table1021_2 ++ (table1021_3 ++ (table1021_4 ++ (table1021_5 ++ (table1021_6 ++
    table1021_7))))))

/-- After LUTGEN 0x1021. -/
def tableState : State := { State.reset with lut := table1021, poly := 0x1021, lutv := true }

/-- V-SER-1's state: the packet of V-SRC-2. -/
def packetState : State :=
  { tableState with
    hOpcode := 1, hLength := 1, hAck := 1, hPktnum := 1, hChecksum := 0xA7FE, bufsz := 32,
    pld := [(1, 1), (2, 2), (3, 3), (4, 4), (5, 5), (6, 6), (7, 7)] }

/-- The frame of V-SRC-2. -/
def srcFrame : List (BitVec 8) :=
  [0x58, 0x01, 0xA7, 0xFE, 0, 1, 2, 3, 4, 5, 6, 7] ++ List.replicate 24 0 ++ [0xAD, 0x8A]

/-- V-DES-4's frame: a good CRC over a wrong header checksum. -/
def badHeaderFrame : List (BitVec 8) :=
  [0x58, 0x01, 0xA7, 0xFF, 0, 1, 2, 3, 4, 5, 6, 7] ++ List.replicate 24 0 ++ [0x20, 0x56]

/-- A frame in FRM, BUFSZ 32, the table of 0x1021. -/
def frameState (frame : List (BitVec 8)) : State :=
  { tableState with bufsz := 32, frm := Memory.ofList 0 frame, frmlen := BitVec.ofNat 16 frame.length }

/-- A handshake frame of V-HSK: header `00 00 ff ff`, the payload's first bytes, zeros, the trailer. -/
def hskFrame (options : List (BitVec 8)) (hi lo : BitVec 8) : List (BitVec 8) :=
  [0, 0, 0xFF, 0xFF] ++ options ++ List.replicate 25 0 ++ [hi, lo]

/-- The table of 0x1021 and bytes to come. -/
def hskState (bytes : List (BitVec 8)) : State := { tableState with rxq := bytes }

/-- In a session. -/
def sessionState : State := { tableState with ackf := 3, npkt := 16, psize := 128, bufsz := 128, sess := true }

/-- V-TX-2 after the first TX, with a stale byte behind the frame. -/
def txState : State :=
  { State.reset with frm := [(0, 0xDE), (1, 0xAD), (2, 0xBE), (3, 1)], frmlen := 3, txlog := [0xDE, 0xAD, 0xBE] }

/-- In a session, with every register of the instance written. -/
def usedState : State :=
  { sessionState with crcacc := 5, hPktnum := 9, pld := [(0, 1)], frm := [(0, 2)], frmlen := 38, crc16 := 7 }

/-- The instruction goes on, answers `(st, val)`, and leaves a state in which the check holds. -/
def yields (i : Instr) (s : State) (st : BitVec 8) (val : BitVec 32) (check : State → Bool) : Bool :=
  match exec i s with
  | .next t => t.response == some ⟨st, val⟩ && check t
  | _ => false

/-- The step goes on to a state in which the check holds. -/
def stepsTo (s : State) (check : State → Bool) : Bool :=
  match step s with
  | .next t => check t
  | _ => false

/-! ### One step of each instruction -/

/-- V-LUT, row 0x1021. -/
theorem test_lutgen : yields (.lutgen 0x1021) State.reset 0x00 0 (fun t =>
    t.lutv && t.poly == 0x1021 && Memory.read t.lut 4 == 0x4084 && Memory.read t.lut 0x80 == 0x9188 &&
    Memory.read t.lut 0xFF == 0x1EF0) = true := by decide +kernel
/-- V-CRCCMD 6. -/
theorem test_lutgen_locked : yields (.lutgen 0x8005) tableState 0x51 0 (fun t => t.poly == 0x1021) = true := by decide
/-- V-CRCCMD 3. -/
theorem test_crcinit : yields .crcinit { State.reset with crcacc := 0x31C3 } 0x00 0 (fun t => t.crcacc == 0) = true := by
  decide
/-- V-CRC-5's trace, third row. -/
theorem test_crcb : yields (.crcb 0x33) { tableState with crcacc := 0x20B5 } 0x00 0x9752
    (fun t => t.crcacc == 0x9752) = true := by decide +kernel
/-- V-CRCCMD 1. -/
theorem test_crcb_no_table : yields (.crcb 0x31) State.reset 0x50 0 (fun t => t.crcacc == 0 && t.lastst == 0x50) = true := by
  decide
/-- V-CRCCMD 9. -/
theorem test_lutrd : yields (.lutrd 0x80) tableState 0x00 0x9188 (fun _ => true) = true := by decide +kernel
/-- V-CRCCMD 2. -/
theorem test_lutrd_no_table : yields (.lutrd 1) State.reset 0x50 0 (fun _ => true) = true := by decide
/-- V-HDR-7. -/
theorem test_hdrmk : yields (.hdrmk 2 3 1 0x7FF) State.reset 0x00 0x4000 (fun t =>
    t.hOpcode == 2 && t.hLength == 3 && t.hAck == 1 && t.hPktnum == 0x7FF && t.hChecksum == 0x4000) = true := by decide
/-- V-HDR-8: the packet number is masked. -/
theorem test_hdrmk_masked : yields (.hdrmk 1 0 0 0x0801) State.reset 0x00 0xBFFE (fun t => t.hPktnum == 1) = true := by
  decide
/-- V-HDR-2. -/
theorem test_hdrchk : yields .hdrchk packetState 0x00 0xA7FE (fun _ => true) = true := by decide
/-- V-HDR-10. -/
theorem test_hdrchk_reset : yields .hdrchk State.reset 0x21 0 (fun t => t.lastst == 0x21) = true := by decide
/-- V-HDR-2. -/
theorem test_hdrpk : yields .hdrpk packetState 0x00 0x5801A7FE (fun _ => true) = true := by decide
/-- V-PLD 13. -/
theorem test_setsz : yields (.setsz 1) State.reset 0x00 0x40 (fun t => t.bufsz == 64) = true := by decide
/-- V-PLD 11. -/
theorem test_setsz_largest : yields (.setsz 3) packetState 0x00 0x100
    (fun t => t.bufsz == 256 && Memory.read t.pld 7 == 7) = true := by decide
/-- V-PLD 15 and 16: the stale byte at 255 survives. -/
theorem test_pldclr : yields .pldclr { State.reset with bufsz := 64, pld := [(31, 0x5A), (63, 1), (64, 2), (255, 0x77)] }
    0x00 0 (fun t => t.pld == [(64, 2), (255, 0x77)]) = true := by decide +kernel
/-- V-PLD 8: the last index inside. -/
theorem test_pldw : yields (.pldw 31 0x5A) packetState 0x00 0
    (fun t => Memory.read t.pld 31 == 0x5A && Memory.read t.pld 7 == 7) = true := by decide
/-- V-PLD 9: the first index outside. -/
theorem test_pldw_outside : yields (.pldw 32 0x5A) packetState 0x12 0 (fun t => Memory.read t.pld 32 == 0) = true := by
  decide
/-- V-PLD 16: above BUFSZ too. -/
theorem test_pldrd : yields (.pldrd 255) { State.reset with bufsz := 64, pld := [(255, 0x77)] } 0x00 0x77
    (fun _ => true) = true := by decide
/-- V-SER-1: the header word's first byte, and the trailer most significant byte first. -/
theorem test_ser : yields (.ser 38) packetState 0x00 0xAD8A (fun t =>
    Memory.readSeq t.frm 0 38 == srcFrame && t.frmlen == 38 && t.crc16 == 0xAD8A &&
    t.lastst == 0x00 && Memory.read t.frm 37 == 0x8A) = true := by decide +kernel
/-- V-SER-2: one byte short. -/
theorem test_ser_short : yields (.ser 37) packetState 0x10 0 (fun t => t.frm == [] && t.frmlen == 0) = true := by decide
/-- V-DES-1. -/
theorem test_des : yields .des (frameState srcFrame) 0x00 0xAD8A (fun t =>
    t.header == ⟨1, 1, 1, 1, 0xA7FE⟩ && t.pld == packetState.pld && t.crc16 == 0xAD8A &&
    t.lastst == 0x00) = true := by decide +kernel
/-- V-DES-4. -/
theorem test_des_bad_header : yields .des (frameState badHeaderFrame) 0x21 0 (fun t => t.pld == [] && t.crc16 == 0) = true := by
  decide +kernel
/-- R163: the bytes stay. -/
theorem test_frmclr : yields .frmclr { State.reset with frm := [(0, 0xDE)], frmlen := 1 } 0x00 0
    (fun t => t.frmlen == 0 && Memory.read t.frm 0 == 0xDE) = true := by decide
/-- V-DES-8: the 262nd byte. -/
theorem test_frmb : yields (.frmb 0xEE) { State.reset with frmlen := 261 } 0x00 0x106
    (fun t => t.frmlen == 262 && t.frm == [(261, 0xEE)]) = true := by decide
/-- V-DES-8: a 263rd byte. -/
theorem test_frmb_full : yields (.frmb 0xEE) { State.reset with frmlen := 262 } 0x13 0 (fun t => t.frmlen == 262) = true := by
  decide
/-- V-DEC-14: the last index inside. -/
theorem test_frmrd : yields (.frmrd 261) { State.reset with frm := [(261, 7)] } 0x00 7 (fun _ => true) = true := by decide
/-- V-DEC-13: the first index outside. -/
theorem test_frmrd_outside : yields (.frmrd 262) State.reset 0x32 0 (fun _ => true) = true := by decide
/-- V-TX-2, the second TX. -/
theorem test_tx : yields .tx txState 0x00 3 (fun t => t.txlog == [0xDE, 0xAD, 0xBE, 0xDE, 0xAD, 0xBE]) = true := by decide
/-- V-RX-4: 38 bytes are taken, the rest stays. -/
theorem test_rx : yields .rx { State.reset with bufsz := 32, rxq := srcFrame ++ [0x99] } 0x00 0x26 (fun t =>
    Memory.readSeq t.frm 0 38 == srcFrame && t.frmlen == 38 && t.rxq == [0x99]) = true := by decide +kernel
/-- V-RX-3: 69 bytes of 70, no response; the length is not written. -/
theorem test_rx_waits : (match exec .rx { State.reset with bufsz := 64, rxq := List.replicate 69 1 } with
    | .next t => t.waiting && t.response == none && t.rxq == [] && t.frmlen == 0
    | _ => false) = true := by decide +kernel
/-- V-HSK-1. -/
theorem test_hsk : yields .hsk (hskState (hskFrame [3, 0, 0, 0, 0x10, 0, 0x80] 0x21 0xC3 ++ [0xEE, 0xEE])) 0x00 0x80 (fun t =>
    t.ackf == 3 && t.npkt == 16 && t.psize == 128 && t.bufsz == 128 && t.sess && t.hChecksum == 0xFFFF &&
    t.crc16 == 0x21C3 && t.frmlen == 38 && t.rxq == [0xEE, 0xEE] && t.lastst == 0x00) = true := by decide +kernel
/-- V-HSK-4: both options bad, the acknowledgement index is reported; the steps done stay done. -/
theorem test_hsk_options : yields .hsk (hskState (hskFrame [8, 0, 0, 0, 0x10, 0, 0x60] 0x69 0x35)) 0x40 0 (fun t =>
    t.ackf == 0 && t.psize == 0 && t.bufsz == 32 && !t.sess && Memory.read t.pld 0 == 8 && t.crc16 == 0x6935) = true := by
  decide +kernel
/-- R186: the instance is cleared, the table and CRCACC stay. -/
theorem test_sessend : yields .sessend usedState 0x00 0 (fun t => t.poly == 0x1021 && t.lutv && t.crcacc == 5 && t.hPktnum == 0 &&
    t.pld == [] && t.frm == [] && t.frmlen == 0 && t.crc16 == 0 && t.bufsz == 0 && t.ackf == 0 && t.npkt == 0 &&
    t.psize == 0 && !t.sess) = true := by decide
/-- The STATUS view, R45, in V-CRCCMD 15's place with a session and an error code. -/
theorem test_rd_status : yields (.rd 0) { sessionState with lastst := 0x53 } 0x00 0x353 (fun t => t.lastst == 0x53) = true := by
  decide
/-- V-DEC-11: no register 15; LASTST keeps its value. -/
theorem test_rd_outside : yields (.rd 15) { State.reset with lastst := 0x31 } 0x32 0 (fun t => t.lastst == 0x31) = true := by
  decide
/-- V-DEC-1's word as an instruction. -/
theorem test_wirehdrConnect : yields (.wirehdrConnect 0 0 0 0) State.reset 0x30 0 (fun t => t.lastst == 0x30) = true := by
  decide
/-- A packet's header at the command port, R90. -/
theorem test_wirehdrDisconnect : yields (.wirehdrDisconnect 1 1 1 0xA7FE) State.reset 0x30 0 (fun _ => true) = true := by
  decide
theorem test_wirehdrData : yields (.wirehdrData 1 0 5 0x6FFA) State.reset 0x30 0 (fun _ => true) = true := by decide
/-- V-DEC-3's word as an instruction. -/
theorem test_wirehdrError : yields (.wirehdrError 3 1 0x700 0) State.reset 0x30 0 (fun t => t.hChecksum == 0) = true := by
  decide

/-! ### The step -/

/-- V-DEC-9: the reserved bit comes before the command's own check. -/
theorem test_step_reserved : stepsTo { State.reset with inbox := [.command 0x22010000] } (fun t =>
    t.response == some ⟨0x31, 0⟩ && t.lastst == 0x31 && t.inbox == []) = true := by decide
/-- R232: RESET while a command waits. -/
theorem test_step_reset : stepsTo { tableState with waiting := true, inbox := [.reset, .command 0], txlog := [1] } (fun t =>
    !t.waiting && !t.lutv && t.lut == [] && t.txlog == [1] && t.inbox == [.command 0]) = true := by decide
/-- R232: RESET when an RX that would complete has taken 3 bytes: they are gone, the others still come. -/
theorem test_step_reset_during_rx : stepsTo { State.reset with
      bufsz := 32, rxq := [1, 2, 3, 4, 5] ++ List.replicate 40 9, inbox := [.resetDuring 0x31000000 3] } (fun t =>
    t.rxq == [4, 5] ++ List.replicate 40 9 && t.bufsz == 0 && t.frm == [] && t.response == none && !t.waiting) = true := by
  decide
/-- R232: RESET when a TX has sent 2 of its 3 bytes: they stay sent. -/
theorem test_step_reset_during_tx : stepsTo { txState with txlog := [7], inbox := [.resetDuring 0x30000000 2] } (fun t =>
    t.txlog == [7, 0xDE, 0xAD] && t.frmlen == 0 && t.response == none) = true := by decide
/-- A waiting block takes no command. -/
theorem test_step_waits : stepsTo { State.reset with waiting := true, inbox := [.command 0x30000000] } (fun t =>
    t.inbox == [.command 0x30000000]) = true := by decide
/-- The word placed by the host is the next one performed. -/
theorem test_withFetchWord : stepsTo (State.reset.withFetchWord 32 0x20000001) (fun t => t.bufsz == 64) = true := by decide

/-- R86, R102: the last PLDW of 256 bytes has the index 255, and for one byte more there is none (no index is wrapped). -/
theorem test_payload_create_longest :
    ((pseudoPayloadCreate (List.replicate 256 7)).bind List.getLast?) = some (.pldw 255 7) ∧
    pseudoPayloadCreate (List.replicate 257 7) = none := by decide +kernel

/-! ### Arithmetic -/

/-- V-LUT, entries of the polynomials 0x8005 and 0xFFFF. -/
theorem test_lutEntry : lutEntry 0x8005 0x80 = 0x8303 ∧ lutEntry 0xFFFF 0x80 = 0x0040 := by decide
/-- V-CRC-7. -/
theorem test_crc16 : crc16 (lutTable 0x1021) [0x58, 0x01, 0xA7, 0xFE] = 0x4DF0 := by decide +kernel
/-- V-HDR, unpack direction. -/
theorem test_hdrUnpack : hdrUnpack 0xBF 0xFF 0x40 0x00 = ⟨2, 3, 1, 0x7FF, 0x4000⟩ ∧
    hdrUnpack 0x01 0x01 0x01 0x01 = ⟨0, 0, 0, 0x101, 0x0101⟩ := by decide
/-- V-SRC-3: the stream of 0x01. -/
theorem test_options : optExtract (fun _ => 1) = ⟨1, 0x01010101, 0x0101⟩ ∧ optError 1 0x0101 = some .optPsize ∧
    ackPer 1 = some 8 := by decide
/-- Section 2.1, the whole table. -/
theorem test_lutTable : lutTable 0x1021 = table1021 := by decide +kernel
/-- With the polynomial 0 every trailer gives residual 0 (notes/assumptions/15.md): what R36 says in passing is not so
there. -/
theorem test_trailer_of_polynomial_zero : crc16 (lutTable 0) [1, 0xAB, 0xCD] = 0 ∧ crc16 (lutTable 0) [1] = 0 := by
  decide +kernel

/-! ### Witnesses: for each statement with premises, a state and operands that meet them

A statement with several clauses has one witness for each clause, at the ends of its range. -/

/-- What `yields` says, as a next state. -/
theorem yields_next {i : Instr} {s : State} {st : BitVec 8} {val : BitVec 32} {check : State → Bool}
    (h : yields i s st val check = true) :
    ∃ t, exec i s = .next t ∧ t.response = some ⟨st, val⟩ ∧ check t = true := by
  unfold yields at h
  split at h
  · next t ht =>
    simp only [Bool.and_eq_true, beq_iff_eq] at h
    exact ⟨t, ht, h.1, h.2⟩
  · cases h

/-- The table of 0x1021 is the table of its polynomial. -/
theorem tableOfPoly_table1021 : ∀ b : BitVec 8, Memory.read table1021 b.toNat = lutEntry 0x1021 b := by decide +kernel

theorem invariant_packetState : Invariant packetState where
  bufsz_legal := by decide
  frmlen_le := by decide
  ackf_le := by decide
  psize_legal := by decide
  pktnum_lt := by decide
  table := fun _ => tableOfPoly_table1021
  session := by decide
  no_session := by decide
  lut_form := by decide +kernel
  pld_form := by decide
  frm_form := by decide

theorem invariant_frameState : Invariant (frameState srcFrame) where
  bufsz_legal := by decide
  frmlen_le := by decide
  ackf_le := by decide
  psize_legal := by decide
  pktnum_lt := by decide
  table := fun _ => tableOfPoly_table1021
  session := by decide
  no_session := by decide
  lut_form := by decide +kernel
  pld_form := by decide
  frm_form := by decide +kernel

theorem invariant_sessionState : Invariant sessionState where
  bufsz_legal := by decide
  frmlen_le := by decide
  ackf_le := by decide
  psize_legal := by decide
  pktnum_lt := by decide
  table := fun _ => tableOfPoly_table1021
  session := by decide
  no_session := by decide
  lut_form := by decide +kernel
  pld_form := by decide
  frm_form := by decide

/-- A state with one word presented. -/
def presented (cw : BitVec 32) : State := { State.reset with inbox := [.command cw, .reset] }

theorem witness_StepRunsTheDecodedInstruction :
    (presented 0x01001021).inbox = .command 0x01001021 :: [.reset] ∧ (presented 0x01001021).waiting = false ∧
    decode 0x01001021#32 = .ok (.lutgen 0x1021) := by decide

/-- The codes on both sides of the assigned ones. -/
theorem witness_UnassignedCodesAreIllegal : ∀ cw ∈ [0x00000000#32, 0x05FFFFFF, 0x0F000000, 0x13000000, 0x1F000001,
    0x29000000, 0x34000000, 0x3E000000, 0x40000000, 0xFF000000],
    (presented cw).inbox = .command cw :: [.reset] ∧ (presented cw).waiting = false ∧
    (cw >>> 24) ∉ [0x01#32, 0x02, 0x03, 0x04, 0x10, 0x11, 0x12, 0x20, 0x21, 0x22, 0x23, 0x24, 0x25, 0x26, 0x27, 0x28,
      0x30, 0x31, 0x32, 0x33, 0x3F] := by
  intro cw h
  fin_cases h <;> decide

/-- Each row with the lowest of its reserved bits alone: the word, the code, the reserved bits. -/
theorem witness_ReservedBitsAreRefused_lowest : ∀ x ∈ [
    (0x01010000#32, 0x01#32, 0xFF0000#32), (0x02000001#32, 0x02#32, 0xFFFFFF#32), (0x03000100#32, 0x03#32, 0xFFFF00#32),
    (0x04000100#32, 0x04#32, 0xFFFF00#32), (0x10200000#32, 0x10#32, 0xE00000#32), (0x11000001#32, 0x11#32, 0xFFFFFF#32),
    (0x12000001#32, 0x12#32, 0xFFFFFF#32), (0x20000004#32, 0x20#32, 0xFFFFFC#32), (0x21000001#32, 0x21#32, 0xFFFFFF#32),
    (0x22010000#32, 0x22#32, 0xFF0000#32), (0x23000100#32, 0x23#32, 0xFFFF00#32), (0x24010000#32, 0x24#32, 0xFF0000#32),
    (0x25000001#32, 0x25#32, 0xFFFFFF#32), (0x26000001#32, 0x26#32, 0xFFFFFF#32), (0x27000100#32, 0x27#32, 0xFFFF00#32),
    (0x28010000#32, 0x28#32, 0xFF0000#32), (0x30000001#32, 0x30#32, 0xFFFFFF#32), (0x31000001#32, 0x31#32, 0xFFFFFF#32),
    (0x32000001#32, 0x32#32, 0xFFFFFF#32), (0x33000001#32, 0x33#32, 0xFFFFFF#32), (0x3F000100#32, 0x3F#32, 0xFFFF00#32)],
    (presented x.1).inbox = .command x.1 :: [.reset] ∧ (presented x.1).waiting = false ∧
    x.1 >>> 24 = x.2.1 ∧ x.1 &&& x.2.2 ≠ 0 := by
  intro x h
  fin_cases h <;> decide

/-- Each row with the highest reserved bit alone. -/
theorem witness_ReservedBitsAreRefused_highest : ∀ x ∈ [
    (0x01800000#32, 0x01#32, 0xFF0000#32), (0x02800000#32, 0x02#32, 0xFFFFFF#32), (0x03800000#32, 0x03#32, 0xFFFF00#32),
    (0x04800000#32, 0x04#32, 0xFFFF00#32), (0x10800000#32, 0x10#32, 0xE00000#32), (0x11800000#32, 0x11#32, 0xFFFFFF#32),
    (0x12800000#32, 0x12#32, 0xFFFFFF#32), (0x20800000#32, 0x20#32, 0xFFFFFC#32), (0x21800000#32, 0x21#32, 0xFFFFFF#32),
    (0x22800000#32, 0x22#32, 0xFF0000#32), (0x23800000#32, 0x23#32, 0xFFFF00#32), (0x24800000#32, 0x24#32, 0xFF0000#32),
    (0x25800000#32, 0x25#32, 0xFFFFFF#32), (0x26800000#32, 0x26#32, 0xFFFFFF#32), (0x27800000#32, 0x27#32, 0xFFFF00#32),
    (0x28800000#32, 0x28#32, 0xFF0000#32), (0x30800000#32, 0x30#32, 0xFFFFFF#32), (0x31800000#32, 0x31#32, 0xFFFFFF#32),
    (0x32800000#32, 0x32#32, 0xFFFFFF#32), (0x33800000#32, 0x33#32, 0xFFFFFF#32), (0x3F800000#32, 0x3F#32, 0xFFFF00#32)],
    (presented x.1).inbox = .command x.1 :: [.reset] ∧ (presented x.1).waiting = false ∧
    x.1 >>> 24 = x.2.1 ∧ x.1 &&& x.2.2 ≠ 0 := by
  intro x h
  fin_cases h <;> decide

theorem witness_DecodeOfEncode : (Instr.lutgen 0xFFFF).wellFormed = true ∧ (Instr.hdrmk 3 3 1 0xFFFF).wellFormed = true ∧
    (Instr.wirehdrConnect 3 1 0 0xFFFF).wellFormed = true ∧ (Instr.wirehdrError 3 1 0x7FF 0xFFFF).wellFormed = true := by
  decide

theorem witness_EncodeOfDecode : decode 0x22FFFFFF#32 = .error .reservedBits ∧ decode 0x2200FFFF#32 = .ok (.pldw 255 255) ∧
    decode 0x34000000#32 = .ok (.wirehdrConnect 3 0 0x400 0) := by decide

/-- The frame of V-SRC-2 and its trailer. -/
theorem witness_TrailerIsTheCrcForOddPolynomials : (0x1021#16).getLsbD 0 = true ∧
    crc16 (lutTable 0x1021) (srcFrame.take 36 ++ [0xAD, 0x8A]) = 0 := by
  rw [test_lutTable]
  decide +kernel

/-- The first clause from 8 on, the second up to 7 with a multiple of 32 and a neighbour, the third with each size. -/
theorem witness_OptionChecksInOrder : 8 ≤ (8#8).toNat ∧ 8 ≤ (255#8).toNat ∧
    ((7#8).toNat ≤ 7 ∧ (96#16).toNat ∉ [32, 64, 128, 256] ∧ (0#16).toNat ∉ [32, 64, 128, 256] ∧
      (257#16).toNat ∉ [32, 64, 128, 256]) ∧
    ((0#8).toNat ≤ 7 ∧ (32#16).toNat ∈ [32, 64, 128, 256] ∧ (256#16).toNat ∈ [32, 64, 128, 256]) := by decide

theorem witness_LutgenFillsTheTableOnce : tableState.lutv = true ∧ State.reset.lutv = false := by decide

theorem witness_CrcbFoldsOneByte : State.reset.lutv = false ∧ tableState.lutv = true := by decide

theorem witness_LutrdReadsOneEntry : State.reset.lutv = false ∧ tableState.lutv = true := by decide

theorem witness_RunningFoldIsTheCrc : tableState.lutv = true ∧ tableState.waiting = false := by decide

theorem witness_HdrchkVerifiesTheHeader :
    State.reset.hChecksum ≠ hdrChecksum State.reset.hOpcode State.reset.hLength State.reset.hAck State.reset.hPktnum ∧
    packetState.hChecksum =
      hdrChecksum packetState.hOpcode packetState.hLength packetState.hAck packetState.hPktnum := by decide

/-- A state with a payload size. -/
def sized (n : BitVec 16) : State := { tableState with bufsz := n }

theorem witness_PldclrZeroesTheSignificantBytes : (sized 0).bufsz = 0 ∧ ((sized 32).bufsz ≠ 0 ∧ (sized 32).bufsz.toNat ≤ 256) ∧
    ((sized 256).bufsz ≠ 0 ∧ (sized 256).bufsz.toNat ≤ 256) := by decide

theorem witness_PldwWritesOneByte : (sized 0).bufsz = 0 ∧ ((sized 32).bufsz ≠ 0 ∧ (sized 32).bufsz.toNat ≤ (32#8).toNat) ∧
    (31#8).toNat < (sized 32).bufsz.toNat ∧ (255#8).toNat < (sized 256).bufsz.toNat := by decide

/-- The longest data: as many bytes as BUFSZ says. -/
theorem witness_PayloadCreateLoadsAndZeroFills : (sized 32).bufsz ≠ 0 ∧ (sized 32).bufsz.toNat ≤ 256 ∧
    (List.replicate 32 (7#8)).length ≤ (sized 32).bufsz.toNat ∧ (sized 32).waiting = false := by decide

/-- V-SER-4: the least capacities accepted, and one less. -/
theorem witness_SerWritesTheFrame : State.reset.lutv = false ∧ ((sized 0).lutv = true ∧ (sized 0).bufsz = 0) ∧
    ((sized 32).lutv = true ∧ (sized 32).bufsz ≠ 0 ∧ (37#16).toNat < (sized 32).bufsz.toNat + 6) ∧
    ((sized 32).bufsz.toNat ≤ 256 ∧ (sized 32).bufsz.toNat + 6 ≤ (38#16).toNat) ∧
    ((sized 256).lutv = true ∧ (sized 256).bufsz ≠ 0 ∧ (sized 256).bufsz.toNat ≤ 256 ∧
      (sized 256).bufsz.toNat + 6 ≤ (262#16).toNat) := by decide

/-- The premises of DES's refusals, FRMLEN one short. -/
theorem witness_DesValidatesAndUnpacks_refused : State.reset.lutv = false ∧ ((sized 0).lutv = true ∧ (sized 0).bufsz = 0) ∧
    ((frameState (srcFrame.take 37)).lutv = true ∧ (frameState (srcFrame.take 37)).bufsz ≠ 0 ∧
      (frameState (srcFrame.take 37)).frmlen.toNat < (frameState (srcFrame.take 37)).bufsz.toNat + 6) := by decide

/-- The premises of DES's validations over a frame state: a table, a size, and the whole frame. -/
abbrev DesPremises (s : State) : Prop :=
  s.lutv = true ∧ s.bufsz ≠ 0 ∧ s.bufsz.toNat ≤ 256 ∧ s.bufsz.toNat + 6 ≤ s.frmlen.toNat

/-- The CRC of the frame in FRM. -/
def residual (s : State) : BitVec 16 := crc16 s.lut (Memory.readSeq s.frm 0 (s.bufsz.toNat + 6))

/-- The header in FRM. -/
def header (s : State) : Header :=
  hdrUnpack (Memory.read s.frm 0) (Memory.read s.frm 1) (Memory.read s.frm 2) (Memory.read s.frm 3)

/-- V-DES-3's last flip. -/
theorem witness_DesValidatesAndUnpacks_crc : DesPremises (frameState (srcFrame.take 37 ++ [0x8B])) ∧
    residual (frameState (srcFrame.take 37 ++ [0x8B])) ≠ 0 := by decide +kernel

/-- V-DES-4. -/
theorem witness_DesValidatesAndUnpacks_header : DesPremises (frameState badHeaderFrame) ∧
    residual (frameState badHeaderFrame) = 0 ∧
    (header (frameState badHeaderFrame)).ck ≠ hdrChecksum (header (frameState badHeaderFrame)).op
      (header (frameState badHeaderFrame)).len (header (frameState badHeaderFrame)).ack
      (header (frameState badHeaderFrame)).pn := by decide +kernel

/-- V-DES-1. -/
theorem witness_DesValidatesAndUnpacks_good : DesPremises (frameState srcFrame) ∧ residual (frameState srcFrame) = 0 ∧
    (header (frameState srcFrame)).ck = hdrChecksum (header (frameState srcFrame)).op
      (header (frameState srcFrame)).len (header (frameState srcFrame)).ack (header (frameState srcFrame)).pn := by
  decide +kernel

/-- A state with a frame length. -/
def filled (n : BitVec 16) : State := { State.reset with frmlen := n }

theorem witness_FrmbAppendsOneByte : (filled 262).frmlen.toNat = 262 ∧ (filled 261).frmlen.toNat < 262 ∧
    (filled 0).frmlen.toNat < 262 := by decide

theorem witness_FrmrdReadsOneByte : 262 ≤ (262#16).toNat ∧ 262 ≤ (0xFFFF#16).toNat ∧ (261#16).toNat < 262 := by decide

theorem witness_SerThenDesReproducesThePacket : Invariant packetState ∧ packetState.lutv = true ∧ packetState.bufsz ≠ 0 ∧
    packetState.bufsz.toNat + 6 ≤ (38#16).toNat ∧ headerConsistent packetState.header = true :=
  ⟨invariant_packetState, by decide⟩

theorem witness_SerOfInconsistentHeaderIsRejected : Invariant (frameState srcFrame) ∧ (frameState srcFrame).lutv = true ∧
    (frameState srcFrame).bufsz ≠ 0 ∧ (frameState srcFrame).bufsz.toNat + 6 ≤ (38#16).toNat ∧
    headerConsistent (frameState srcFrame).header = false := ⟨invariant_frameState, by decide⟩

theorem witness_DesThenSerRewritesTheFrame : ∃ t, Invariant (frameState srcFrame) ∧
    (frameState srcFrame).poly.getLsbD 0 = true ∧ (frameState srcFrame).bufsz.toNat + 6 ≤ (38#16).toNat ∧
    exec .des (frameState srcFrame) = .next t ∧ t.lastst = 0x00 := by
  obtain ⟨t, ht, _, hc⟩ := yields_next test_des
  simp only [Bool.and_eq_true, beq_iff_eq] at hc
  exact ⟨t, invariant_frameState, by decide, by decide, ht, hc.2⟩

/-- V-DES-3's last flip, after V-SER-1's SER. -/
theorem witness_OneChangedByteIsRejected : ∃ t, Invariant packetState ∧ packetState.poly.getLsbD 0 = true ∧
    exec (.ser 38) packetState = .next t ∧ t.lastst = 0x00 ∧ 37 < packetState.bufsz.toNat + 6 ∧
    0x8B#8 ≠ Memory.read t.frm 37 := by
  obtain ⟨t, ht, _, hc⟩ := yields_next test_ser
  simp only [Bool.and_eq_true, beq_iff_eq] at hc
  refine ⟨t, invariant_packetState, by decide, ht, hc.1.2, by decide, ?_⟩
  rw [hc.2]
  decide

theorem witness_TxSendsTheFrameBuffer : (filled 0).frmlen.toNat ≤ 262 ∧ (filled 262).frmlen.toNat ≤ 262 := by decide

/-- A size and a number of bytes to come. -/
def arriving (size : BitVec 16) (n : Nat) : State := { State.reset with bufsz := size, rxq := List.replicate n 1 }

theorem witness_RxReceivesOneFrame : (arriving 0 0).bufsz = 0 ∧
    ((arriving 32 38).bufsz ≠ 0 ∧ (arriving 32 38).bufsz.toNat ≤ 256 ∧
      (arriving 32 38).bufsz.toNat + 6 ≤ (arriving 32 38).rxq.length) ∧
    ((arriving 256 262).bufsz ≠ 0 ∧ (arriving 256 262).bufsz.toNat ≤ 256 ∧
      (arriving 256 262).bufsz.toNat + 6 ≤ (arriving 256 262).rxq.length) ∧
    ((arriving 32 37).bufsz ≠ 0 ∧ (arriving 32 37).bufsz.toNat ≤ 256 ∧
      (arriving 32 37).rxq.length < (arriving 32 37).bufsz.toNat + 6) := by decide +kernel

/-- The premises that HSK's clauses share: a table, no session, 38 bytes. -/
abbrev HskPremises (s : State) : Prop := s.lutv = true ∧ s.sess = false ∧ 38 ≤ s.rxq.length

/-- The byte `i` to come. -/
def byte (s : State) (i : Nat) : BitVec 8 := s.rxq.getD i 0

/-- The first four bytes to come as a header are consistent. -/
abbrev HskHeaderGood (s : State) : Prop :=
  (hdrUnpack (byte s 0) (byte s 1) (byte s 2) (byte s 3)).ck =
    hdrChecksum (hdrUnpack (byte s 0) (byte s 1) (byte s 2) (byte s 3)).op
      (hdrUnpack (byte s 0) (byte s 1) (byte s 2) (byte s 3)).len
      (hdrUnpack (byte s 0) (byte s 1) (byte s 2) (byte s 3)).ack
      (hdrUnpack (byte s 0) (byte s 1) (byte s 2) (byte s 3)).pn

theorem witness_HskStartsTheSession_refused : State.reset.lutv = false ∧
    (sessionState.lutv = true ∧ sessionState.sess = true) := by decide

/-- V-HSK-7: the largest index and the largest size. -/
def hskLargest : State := hskState (hskFrame [7, 0xFF, 0xFF, 0xFF, 0xFF, 1, 0] 0x09 0x63)

theorem witness_HskStartsTheSession : HskPremises hskLargest ∧ crc16 hskLargest.lut (hskLargest.rxq.take 38) = 0 ∧
    HskHeaderGood hskLargest ∧ (byte hskLargest 4).toNat ≤ 7 ∧
    (beU16 (byte hskLargest 9) (byte hskLargest 10)).toNat ∈ [32, 64, 128, 256] := by decide +kernel

/-- V-HSK-14. -/
theorem witness_HskFailureLeavesTheStepsDone_short :
    (hskState (List.replicate 37 0)).lutv = true ∧ (hskState (List.replicate 37 0)).sess = false ∧
    (hskState (List.replicate 37 0)).rxq.length < 38 := by decide

/-- V-HSK-6. -/
theorem witness_HskFailureLeavesTheStepsDone_crc : HskPremises (hskState (List.replicate 38 1)) ∧
    crc16 (hskState (List.replicate 38 1)).lut ((hskState (List.replicate 38 1)).rxq.take 38) ≠ 0 := by decide +kernel

/-- V-HSK-13. -/
theorem witness_HskFailureLeavesTheStepsDone_header : HskPremises (hskState (List.replicate 38 0)) ∧
    crc16 (hskState (List.replicate 38 0)).lut ((hskState (List.replicate 38 0)).rxq.take 38) = 0 ∧
    ¬ HskHeaderGood (hskState (List.replicate 38 0)) := by decide +kernel

/-- V-HSK-2. -/
def hskBadIndex : State := hskState (hskFrame [8, 0, 0, 0, 0x10, 0, 0x80] 0x20 0x7B)

theorem witness_HskFailureLeavesTheStepsDone_ackf : HskPremises hskBadIndex ∧
    crc16 hskBadIndex.lut (hskBadIndex.rxq.take 38) = 0 ∧ HskHeaderGood hskBadIndex ∧ 8 ≤ (byte hskBadIndex 4).toNat := by
  decide +kernel

/-- V-HSK-3. -/
def hskBadSize : State := hskState (hskFrame [3, 0, 0, 0, 0x10, 0, 0x60] 0x68 0x8D)

theorem witness_HskFailureLeavesTheStepsDone_psize : HskPremises hskBadSize ∧
    crc16 hskBadSize.lut (hskBadSize.rxq.take 38) = 0 ∧ HskHeaderGood hskBadSize ∧ (byte hskBadSize 4).toNat ≤ 7 ∧
    (beU16 (byte hskBadSize 9) (byte hskBadSize 10)).toNat ∉ [32, 64, 128, 256] := by decide +kernel

theorem witness_SessendIsResetWithTheTableKept : ∃ t u, Invariant sessionState ∧ sessionState.lutv = true ∧
    exec .sessend sessionState = .next t ∧ exec (.lutgen sessionState.poly) sessionState.applyReset = .next u :=
  ⟨_, _, invariant_sessionState, rfl, rfl, rfl⟩

theorem witness_RdReadsEveryRegister : 14 < (15#8).toNat ∧ 14 < (255#8).toNat ∧
    ((14#8).toNat ≤ 14 ∧ { State.reset with ackf := 7 }.ackf.toNat ≤ 7) ∧ ((0#8).toNat ≤ 14 ∧ State.reset.ackf.toNat ≤ 7) := by
  decide

theorem witness_ResetLeavesTheSpecsValues : (∃ b, Instr.crcb 0 = .crcb b) ∧ (∃ b, Instr.lutrd 255 = .lutrd b) ∧
    ∃ cap, Instr.ser 38 = .ser cap := ⟨⟨_, rfl⟩, ⟨_, rfl⟩, ⟨_, rfl⟩⟩

theorem witness_ResetEventFromEveryState :
    { tableState with waiting := true, inbox := [.reset, .command 0] }.inbox = .reset :: [.command 0] := rfl

/-- A block that waits while the host would present a word. -/
def waitingState : State := { State.reset with waiting := true, inbox := [.command 0x30000000, .reset] }

theorem witness_WaitingBlockNeverGoesOn :
    waitingState.waiting = true ∧ (∀ rest, waitingState.inbox ≠ .reset :: rest) ∧
    ∀ cw n rest, waitingState.inbox ≠ .resetDuring cw n :: rest := by
  refine ⟨rfl, fun rest h => ?_, fun cw n rest h => ?_⟩ <;> simp [waitingState] at h

/-- The invariant says nothing of what is outside the block or of the model's own fields. -/
theorem invariant_outside {s : State} (h : Invariant s) (rxq : List (BitVec 8)) (inbox : List HostEvent) (waiting : Bool) :
    Invariant { s with rxq := rxq, inbox := inbox, waiting := waiting } where
  bufsz_legal := h.bufsz_legal
  frmlen_le := h.frmlen_le
  ackf_le := h.ackf_le
  psize_legal := h.psize_legal
  pktnum_lt := h.pktnum_lt
  table := h.table
  session := h.session
  no_session := h.no_session
  lut_form := h.lut_form
  pld_form := h.pld_form
  frm_form := h.frm_form

/-- A word presented with RESET during it, a frame of 38 bytes in FRM and 40 bytes to come. -/
def interrupted (cw : BitVec 32) (k : Nat) (waiting : Bool) : State :=
  { frameState srcFrame with rxq := List.replicate 40 1, inbox := [.resetDuring cw k, .reset], waiting := waiting }

theorem invariant_interrupted (cw : BitVec 32) (k : Nat) (waiting : Bool) : Invariant (interrupted cw k waiting) :=
  invariant_outside invariant_frameState _ _ _

/-- TX, RX and HSK with RESET before their last byte; another word; a block that waits. -/
theorem witness_ResetDuringACommand :
    (Invariant (interrupted 0x30000000 37 false) ∧ (interrupted 0x30000000 37 false).inbox = .resetDuring 0x30000000 37 :: [.reset] ∧
      (interrupted 0x30000000 37 false).waiting = false ∧ (interrupted 0x30000000 37 false).frmlen = 38) ∧
    (Invariant (interrupted 0x31000000 37 false) ∧ (interrupted 0x31000000 37 false).inbox = .resetDuring 0x31000000 37 :: [.reset] ∧
      (interrupted 0x31000000 37 false).waiting = false ∧ (interrupted 0x31000000 37 false).bufsz = 32) ∧
    (Invariant (interrupted 0x32000000 37 false) ∧ (interrupted 0x32000000 37 false).inbox = .resetDuring 0x32000000 37 :: [.reset] ∧
      (interrupted 0x32000000 37 false).waiting = false ∧ (interrupted 0x32000000 37 false).lutv = true ∧
      (interrupted 0x32000000 37 false).sess = false) ∧
    (Invariant (interrupted 0x02000000 0 false) ∧ (interrupted 0x02000000 0 false).inbox = .resetDuring 0x02000000 0 :: [.reset]) ∧
    (Invariant (interrupted 0x31000000 37 true) ∧ (interrupted 0x31000000 37 true).inbox = .resetDuring 0x31000000 37 :: [.reset] ∧
      (interrupted 0x31000000 37 true).waiting = true) :=
  ⟨⟨invariant_interrupted _ _ _, rfl, rfl, rfl⟩, ⟨invariant_interrupted _ _ _, rfl, rfl, rfl⟩,
    ⟨invariant_interrupted _ _ _, rfl, rfl, rfl, rfl⟩, ⟨invariant_interrupted _ _ _, rfl⟩,
    ⟨invariant_interrupted _ _ _, rfl, rfl⟩⟩

/-- In a session, SESSEND presented. -/
def endingState : State := { sessionState with inbox := [.command 0x33000000] }

theorem invariant_endingState : Invariant endingState := invariant_outside invariant_sessionState _ _ _

theorem witness_EveryStepKeepsTheInvariant : ∃ t, Invariant endingState ∧ step endingState = .next t ∧ t.sess = false :=
  ⟨_, invariant_endingState, rfl, rfl⟩

theorem witness_NothingStopsTheMachine : Invariant packetState ∧ Invariant endingState :=
  ⟨invariant_packetState, invariant_endingState⟩

/-- The first values outside, with room for the frame that is asked for. -/
theorem witness_AccessesOutsideAreFaults : (256 < (sized 257).bufsz.toNat ∧ (sized 257).lutv = true ∧
    (sized 257).bufsz.toNat + 6 ≤ (263#16).toNat) ∧
    (256 < { sized 257 with frmlen := 263 }.bufsz.toNat ∧
      { sized 257 with frmlen := 263 }.bufsz.toNat + 6 ≤ { sized 257 with frmlen := 263 }.frmlen.toNat) ∧
    262 < (filled 263).frmlen.toNat ∧ 7 < { State.reset with ackf := 8 }.ackf.toNat := by decide

/-- A command that ends with OK, and one that ends with an error. -/
theorem witness_CommandsWriteOnlyTheirWriteSets : (∃ t, exec (.pldw 31 0x5A) packetState = .next t) ∧
    ∃ t r, exec (.pldw 32 0x5A) packetState = .next t ∧ Instr.pldw 32 0x5A ≠ .hsk ∧ t.response = some r ∧
      r.st ≠ 0x00 := by
  obtain ⟨t, ht, _⟩ := yields_next test_pldw
  obtain ⟨u, hu, hr, _⟩ := yields_next test_pldw_outside
  exact ⟨⟨t, ht⟩, u, _, hu, by decide, hr, by decide⟩

/-- A command that responds, and one that waits. -/
theorem witness_CommandsEndWithTheirCodes : (∃ t, exec .hdrchk packetState = .next t) ∧
    ∃ t, exec .rx (arriving 32 0) = .next t := ⟨⟨_, rfl⟩, ⟨_, rfl⟩⟩

/-- A session that starts, one that ends, and a handshake in a session. -/
theorem witness_SessionChangesOnlyByHskAndSessend :
    (∃ s t, exec .hsk s = .next t ∧ s.sess = false ∧ t.sess = true) ∧
    (∃ s t, exec .sessend s = .next t ∧ s.sess = true ∧ t.sess = false) ∧
    (∃ s t, exec .hsk s = .next t ∧ s.sess = true) := by
  obtain ⟨t, ht, _, hc⟩ := yields_next test_hsk
  simp only [Bool.and_eq_true, beq_iff_eq] at hc
  exact ⟨⟨_, t, ht, rfl, hc.1.1.1.1.1.2⟩, ⟨sessionState, _, rfl, rfl, rfl⟩, ⟨sessionState, _, rfl, rfl⟩⟩

/-- A command that answers, and one that faults in a state that no run reaches. -/
theorem witness_OnlyHskDependsOnTheSession : (∃ t, exec (.setsz 1) sessionState = .next t) ∧
    exec .tx (filled 263) = .fault .frmOutside ∧ Instr.setsz 1 ≠ .hsk ∧ Instr.setsz 1 ≠ .sessend ∧
    Instr.setsz 1 ≠ .rd 0 ∧ Instr.tx ≠ .hsk ∧ Instr.tx ≠ .sessend ∧ Instr.tx ≠ .rd 0 := ⟨⟨_, rfl⟩, rfl, by decide⟩

/-- Each of the five commands completes somewhere, and one faults in a state that no run reaches. -/
theorem witness_CodecDoesNotUseTheAccumulator : (∃ t, exec (.ser 38) packetState = .next t) ∧
    (∃ t, exec .des (frameState srcFrame) = .next t) ∧ (∃ s t, exec .hsk s = .next t ∧ t.response = some ⟨0x00, 0x80⟩) ∧
    (∃ t, exec .tx (filled 0) = .next t) ∧ (∃ s t, exec .rx s = .next t ∧ t.response = some ⟨0x00, 0x26⟩) ∧
    exec .tx (filled 263) = .fault .frmOutside := by
  obtain ⟨t, ht, _⟩ := yields_next test_ser
  obtain ⟨u, hu, _⟩ := yields_next test_des
  obtain ⟨v, hv, hv', _⟩ := yields_next test_hsk
  obtain ⟨w, hw, hw', _⟩ := yields_next test_rx
  exact ⟨⟨t, ht⟩, ⟨u, hu⟩, ⟨_, v, hv, hv'⟩, ⟨_, rfl⟩, ⟨_, w, hw, hw'⟩, rfl⟩

theorem witness_TableIsUnobservableBeforeLutgen : ∃ t, State.reset.lutv = false ∧
    exec (.lutrd 1) State.reset = .next t := ⟨_, rfl, rfl⟩

end Sys2Proof.Tests
end

section
/-! PROOF. Where the machine stops: an access outside PLD, FRM or ACKTAB (spec/00_scope.md R11, spec/10_state.md R50,
notes/assumptions/11.md). -/

namespace Sys2Proof.Machine

/-! ### The shared accesses, outside -/

theorem accessPld_of_gt {n : Nat} (r : Result) (h : 256 < n) : accessPld n r = .fault .pldOutside :=
  if_neg (Nat.not_le_of_lt h)

theorem accessFrm_of_gt {n : Nat} (r : Result) (h : 262 < n) : accessFrm n r = .fault .frmOutside :=
  if_neg (Nat.not_le_of_lt h)

/-- `ACKTAB` has eight entries (R99). -/
theorem ackPer_of_gt {ackf : BitVec 8} (h : 7 < ackf.toNat) : ackPer ackf = none :=
  List.getElem?_eq_none h

/-! ### The meaning of each command that makes such an access -/

theorem exec_pldclr (s : State) : exec .pldclr s = execPldclr s := rfl

theorem exec_ser (cap : BitVec 16) (s : State) : exec (.ser cap) s = execSer cap s := rfl

theorem exec_des (s : State) : exec .des s = execDes s := rfl

theorem exec_frmb (b : BitVec 8) (s : State) : exec (.frmb b) s = execFrmb b s := rfl

theorem exec_tx (s : State) : exec .tx s = execTx s := rfl

theorem exec_rx (s : State) : exec .rx s = execRx s := rfl

theorem exec_rd (r : BitVec 8) (s : State) : exec (.rd r) s = execRd r s := rfl

/-! ### The commands that access BUFSZ bytes -/

section
variable {s : State} (h : 256 < s.bufsz.toNat)
include h

/-- A BUFSZ outside PLD is in force, so the command that needs a size gets past that check. -/
theorem requireSize_of_bufsz_gt (r : Result) : requireSize s r = r := by
  refine requireSize_of_size r fun hzero => ?_
  simp [hzero] at h

theorem exec_pldclr_outside : exec .pldclr s = .fault .pldOutside := by
  rw [exec_pldclr, execPldclr, requireSize_of_bufsz_gt h, accessPld_of_gt _ h]

/-- The frame of a BUFSZ above 256 has more than 262 bytes (R96). -/
theorem exec_rx_outside : exec .rx s = .fault .frmOutside := by
  have hframe : 262 < frameLen s.bufsz.toNat := by rw [frameLen_eq]; omega
  rw [exec_rx, execRx, requireSize_of_bufsz_gt h, accessFrm_of_gt _ hframe]

theorem exec_ser_outside (htable : s.lutv = true) {cap : BitVec 16} (hcap : s.bufsz.toNat + 6 ≤ cap.toNat) :
    exec (.ser cap) s = .fault .pldOutside := by
  have hroom : ¬ cap.toNat < frameLen s.bufsz.toNat := by rw [frameLen_eq]; omega
  rw [exec_ser, execSer, requireTable_of_table _ htable, requireSize_of_bufsz_gt h, if_neg hroom, accessPld_of_gt _ h]

theorem exec_des_outside (htable : s.lutv = true) (hlen : s.bufsz.toNat + 6 ≤ s.frmlen.toNat) :
    exec .des s = .fault .pldOutside := by
  have hwhole : ¬ s.frmlen.toNat < frameLen s.bufsz.toNat := by rw [frameLen_eq]; omega
  rw [exec_des, execDes, requireTable_of_table _ htable, requireSize_of_bufsz_gt h, if_neg hwhole, accessPld_of_gt _ h]

end

/-! ### The commands that access FRMLEN bytes, and RD of ACKPER -/

theorem exec_tx_outside {s : State} (h : 262 < s.frmlen.toNat) : exec .tx s = .fault .frmOutside := by
  rw [exec_tx, execTx, accessFrm_of_gt _ h]

/-- FRMB's own check is for a full FRM, at exactly 262 (R164), and does not catch a FRMLEN above it. -/
theorem exec_frmb_outside {s : State} (h : 262 < s.frmlen.toNat) (b : BitVec 8) :
    exec (.frmb b) s = .fault .frmOutside := by
  have hnotFull : s.frmlen.toNat ≠ Config.frmCap := Nat.ne_of_gt h
  rw [exec_frmb, execFrmb, if_neg hnotFull, accessFrm_of_gt _ (Nat.lt_succ_of_lt h)]

/-- ACKPER, register 14 (R47), is the one register that a state may fail to have. -/
theorem registerValue_ackPer_of_gt {s : State} (h : 7 < s.ackf.toNat) : registerValue 14 s = none := by
  rw [registerValue, ackPer_of_gt h, Option.map_none]

theorem execRd_of_no_value {r : BitVec 8} {s : State} (hr : r.toNat < 15) (hv : registerValue r.toNat s = none) :
    execRd r s = .fault .ackTabOutside := by
  have hinside : ¬ Config.regCount ≤ r.toNat := Nat.not_le_of_lt hr
  rw [execRd, if_neg hinside, hv]

theorem exec_rd_ackPer_outside {s : State} (h : 7 < s.ackf.toNat) : exec (.rd 14) s = .fault .ackTabOutside := by
  rw [exec_rd]
  exact execRd_of_no_value (by decide) (registerValue_ackPer_of_gt h)

/-- Settles O52, command by command: each access outside is reached because the checks before it pass. -/
theorem accessesOutsideAreFaults : Obligations.AccessesOutsideAreFaults := by
  intro s
  refine ⟨fun hsize => ⟨exec_pldclr_outside hsize, exec_rx_outside hsize, fun htable => ⟨?ser, ?des⟩⟩,
    fun hlen => ⟨exec_tx_outside hlen, exec_frmb_outside hlen⟩, exec_rd_ackPer_outside⟩
  case ser => exact fun _ => exec_ser_outside hsize htable
  case des => exact exec_des_outside hsize htable

end Sys2Proof.Machine
end

section
/-! PROOF. What each command can do: one lemma per command that says every next state it gives, with what its checks say
there. The statements about all commands follow from these. -/

namespace Sys2Proof.Machine

/-- The command ended with an error for one of the causes given, and wrote nothing but its ending (R200). -/
def ErrsWith (causes : List Status) (s t : State) : Prop := ∃ c ∈ causes, t = s.finish c 0

section
variable {s t : State}

/-! ### CRC engine (spec/40_crc.md) -/

theorem execLutgen_next {poly : BitVec 16} (h : execLutgen poly s = .next t) :
    ErrsWith [.stateLutLocked] s t ∨
    (s.lutv = false ∧ t = (s.setTable (lutTable poly) poly).finish .ok 0) := by
  unfold execLutgen at h
  split at h
  · exact .inl ⟨_, by simp, raise_next.mp h⟩
  · next hlutv => exact .inr ⟨by simpa using hlutv, respond_next.mp h⟩

theorem execCrcb_next {b : BitVec 8} (h : execCrcb b s = .next t) :
    ErrsWith [.stateNoLut] s t ∨
    (s.lutv = true ∧
      t = (s.setCrcacc (crcStep s.lut s.crcacc b)).finish .ok ((crcStep s.lut s.crcacc b).setWidth 32)) := by
  rcases requireTable_next h with ⟨hlutv, h⟩ | ⟨-, rfl⟩
  · exact .inr ⟨hlutv, respond_next.mp h⟩
  · exact .inl ⟨_, by simp, rfl⟩

theorem execLutrd_next {i : BitVec 8} (h : execLutrd i s = .next t) :
    ErrsWith [.stateNoLut] s t ∨
    (s.lutv = true ∧ t = s.finish .ok ((Memory.read s.lut i.toNat).setWidth 32)) := by
  rcases requireTable_next h with ⟨hlutv, h⟩ | ⟨-, rfl⟩
  · exact .inr ⟨hlutv, respond_next.mp h⟩
  · exact .inl ⟨_, by simp, rfl⟩

/-! ### Header (spec/41_header.md) -/

theorem execHdrchk_next (h : execHdrchk s = .next t) :
    ErrsWith [.integHdrchk] s t ∨
    (headerConsistent s.header = true ∧ t = s.finish .ok (s.hChecksum.setWidth 32)) := by
  unfold execHdrchk at h
  split at h
  · next hck => exact .inr ⟨hck, respond_next.mp h⟩
  · exact .inl ⟨_, by simp, raise_next.mp h⟩

/-! ### Codec (spec/42_packet_codec.md) -/

theorem execPldclr_next (h : execPldclr s = .next t) :
    ErrsWith [.stateNoSize] s t ∨
    (s.bufsz.toNat ≤ 256 ∧
      t = (s.setPld (Memory.writeSeq s.pld 0 (List.replicate s.bufsz.toNat 0))).finish .ok 0) := by
  rcases requireSize_next h with ⟨-, h⟩ | ⟨-, rfl⟩
  · obtain ⟨hsize, h⟩ := accessPld_next h
    exact .inr ⟨hsize, respond_next.mp h⟩
  · exact .inl ⟨_, by simp, rfl⟩

theorem execPldw_next {idx b : BitVec 8} (h : execPldw idx b s = .next t) :
    ErrsWith [.stateNoSize, .sizePldRange] s t ∨
    (idx.toNat < s.bufsz.toNat ∧ t = (s.setPld (Memory.write s.pld idx.toNat b)).finish .ok 0) := by
  rcases requireSize_next h with ⟨-, h⟩ | ⟨-, rfl⟩
  · split at h
    · exact .inl ⟨_, by simp, raise_next.mp h⟩
    · next hidx => exact .inr ⟨Nat.not_le.mp hidx, respond_next.mp h⟩
  · exact .inl ⟨_, by simp, rfl⟩

/-- The state SER writes (R152). -/
def serialized (s : State) : State :=
  ((s.setFrm (Memory.writeSeq s.frm 0 (frameOf s.lut s.header (Memory.readSeq s.pld 0 s.bufsz.toNat)))).setFrmlen
    (frameLen s.bufsz.toNat)).setCrc16 (crc16 s.lut (hdrPack s.header ++ Memory.readSeq s.pld 0 s.bufsz.toNat))

theorem execSer_next {cap : BitVec 16} (h : execSer cap s = .next t) :
    ErrsWith [.stateNoLut, .stateNoSize, .sizeSerCap] s t ∨
    (s.lutv = true ∧ s.bufsz.toNat ≤ 256 ∧ s.bufsz.toNat + 6 ≤ cap.toNat ∧
      t = (serialized s).finish .ok ((serialized s).crc16.setWidth 32)) := by
  rcases requireTable_next h with ⟨hlutv, h⟩ | ⟨-, rfl⟩
  · rcases requireSize_next h with ⟨-, h⟩ | ⟨-, rfl⟩
    · split at h
      · exact .inl ⟨_, by simp, raise_next.mp h⟩
      · next hcap =>
        obtain ⟨hsize, h⟩ := accessPld_next h
        obtain ⟨-, h⟩ := accessFrm_next h
        exact .inr ⟨hlutv, hsize, by simpa using hcap, respond_next.mp h⟩
    · exact .inl ⟨_, by simp, rfl⟩
  · exact .inl ⟨_, by simp, rfl⟩

/-- A frame that is not accepted fails one of the two checks of R159. -/
theorem frameError_mem {size : Nat} {c : Status} (h : frameError size s = some c) : c ∈ [.integCrc, .integHdrchk] := by
  rcases frameError_cases size s with ⟨-, he⟩ | ⟨-, -, he⟩ | ⟨-, -, he⟩ <;> simp_all

theorem execDes_next (h : execDes s = .next t) :
    ErrsWith [.stateNoLut, .stateNoSize, .sizeDesShort, .integCrc, .integHdrchk] s t ∨
    (s.lutv = true ∧ s.bufsz.toNat ≤ 256 ∧ s.bufsz.toNat + 6 ≤ s.frmlen.toNat ∧
      frameError s.bufsz.toNat s = none ∧
      t = (commitFrame s.bufsz.toNat s).finish .ok ((commitFrame s.bufsz.toNat s).crc16.setWidth 32)) := by
  rcases requireTable_next h with ⟨hlutv, h⟩ | ⟨-, rfl⟩
  · rcases requireSize_next h with ⟨-, h⟩ | ⟨-, rfl⟩
    · split at h
      · exact .inl ⟨_, by simp, raise_next.mp h⟩
      · next hlen =>
        obtain ⟨hsize, h⟩ := accessPld_next h
        obtain ⟨-, h⟩ := accessFrm_next h
        split at h
        · next c hframe =>
          exact .inl ⟨c, List.mem_append_right [Status.stateNoLut, .stateNoSize, .sizeDesShort] (frameError_mem hframe),
            raise_next.mp h⟩
        · next hframe => exact .inr ⟨hlutv, hsize, by simpa using hlen, hframe, respond_next.mp h⟩
    · exact .inl ⟨_, by simp, rfl⟩
  · exact .inl ⟨_, by simp, rfl⟩

theorem execFrmb_next {b : BitVec 8} (h : execFrmb b s = .next t) :
    ErrsWith [.sizeFrmFull] s t ∨
    (s.frmlen.toNat < 262 ∧
      t = ((s.setFrm (Memory.write s.frm s.frmlen.toNat b)).setFrmlen (s.frmlen.toNat + 1)).finish .ok
        (BitVec.ofNat 32 (s.frmlen.toNat + 1))) := by
  unfold execFrmb at h
  split at h
  · exact .inl ⟨_, by simp, raise_next.mp h⟩
  · obtain ⟨hlen, h⟩ := accessFrm_next h
    exact .inr ⟨hlen, respond_next.mp h⟩

theorem execFrmrd_next {idx : BitVec 16} (h : execFrmrd idx s = .next t) :
    ErrsWith [.argIndex] s t ∨
    (idx.toNat < 262 ∧ t = s.finish .ok ((Memory.read s.frm idx.toNat).setWidth 32)) := by
  unfold execFrmrd at h
  split at h
  · exact .inl ⟨_, by simp, raise_next.mp h⟩
  · next hidx => exact .inr ⟨Nat.not_le.mp hidx, respond_next.mp h⟩

/-! ### Framer and session (spec/43_framer_session.md) -/

theorem execTx_next (h : execTx s = .next t) :
    s.frmlen.toNat ≤ 262 ∧
    t = (s.send (Memory.readSeq s.frm 0 s.frmlen.toNat)).finish .ok (s.frmlen.setWidth 32) := by
  obtain ⟨hlen, h⟩ := accessFrm_next h
  exact ⟨hlen, respond_next.mp h⟩

/-- RX: refused, complete, or waiting with the bytes that did arrive (R177, R215). -/
theorem execRx_next (h : execRx s = .next t) :
    ErrsWith [.stateNoSize] s t ∨
    (s.bufsz.toNat ≤ 256 ∧ s.bufsz.toNat + 6 ≤ s.rxq.length ∧
      t = ((s.receive (s.bufsz.toNat + 6)).setFrmlen (s.bufsz.toNat + 6)).finish .ok
        (BitVec.ofNat 32 (s.bufsz.toNat + 6))) ∨
    (s.bufsz.toNat ≤ 256 ∧ s.rxq.length < s.bufsz.toNat + 6 ∧ t = (s.receive (s.bufsz.toNat + 6)).hang) := by
  rcases requireSize_next h with ⟨-, h⟩ | ⟨-, rfl⟩
  · obtain ⟨hframe, h⟩ := accessFrm_next h
    rw [frameLen_eq] at h hframe
    have hsize : s.bufsz.toNat ≤ 256 := by omega
    split at h
    · next hall => exact .inr (.inl ⟨hsize, delivers_iff.mp hall, respond_next.mp h⟩)
    · next hfew =>
      rw [delivers_iff, Nat.not_le] at hfew
      exact .inr (.inr ⟨hsize, hfew, (Host.Outcome.next.inj h).symm⟩)
  · exact .inl ⟨_, by simp, rfl⟩

/-- HSK with what did arrive of its 38 bytes taken (R179 step 2). -/
def handshakeTaken (s : State) : State := (s.setBufsz 32).receive 38

/-- HSK with its 38 bytes received. -/
def handshakeReceived (s : State) : State := (handshakeTaken s).setFrmlen 38

/-- HSK with the frame it received committed (R182): the options are now in the payload. -/
def handshakeCommitted (s : State) : State := commitFrame 32 (handshakeReceived s)

/-- The options HSK received (R180). -/
def handshakeOptions (s : State) : Options := optExtract (Memory.read (handshakeCommitted s).pld)

/-- HSK with the session started (R183). -/
def handshakeStarted (s : State) : State :=
  (((handshakeCommitted s).setOptions (handshakeOptions s)).setBufsz (handshakeOptions s).psize).startSession

/-- Options that are not accepted fail one of the two checks of R181. -/
theorem optError_mem {ackf : BitVec 8} {psize : BitVec 16} {c : Status} (h : optError ackf psize = some c) :
    c ∈ [.optAckf, .optPsize] := by
  rcases optError_cases ackf psize with ⟨-, he⟩ | ⟨-, -, he⟩ | ⟨-, -, he⟩ <;> simp_all

/-- HSK: refused before any byte is taken, waiting, refused after the receive, refused after the commit, or the session
started (R179, R184). -/
theorem execHsk_next (h : execHsk s = .next t) :
    ErrsWith [.stateNoLut, .stateSession] s t ∨
    (s.lutv = true ∧ s.sess = false ∧
      ((s.rxq.length < 38 ∧ t = (handshakeTaken s).hang) ∨
       (38 ≤ s.rxq.length ∧
        (ErrsWith [.integCrc, .integHdrchk] (handshakeReceived s) t ∨
         ErrsWith [.optAckf, .optPsize] (handshakeCommitted s) t ∨
         (optError (handshakeOptions s).ackf (handshakeOptions s).psize = none ∧
          t = (handshakeStarted s).finish .ok ((handshakeOptions s).psize.setWidth 32)))))) := by
  rcases requireTable_next h with ⟨hlutv, h⟩ | ⟨-, rfl⟩
  · split at h
    · exact .inl ⟨_, by simp, raise_next.mp h⟩
    · next hsess =>
      refine .inr ⟨hlutv, by simpa using hsess, ?_⟩
      split at h
      · next hall =>
        refine .inr ⟨delivers_iff.mp hall, ?_⟩
        change acceptHandshake (handshakeReceived s) = .next t at h
        rcases acceptHandshake_cases (handshakeReceived s) with ⟨c, hc, he⟩ | ⟨c, -, hc, he⟩ | ⟨-, hok, he⟩
        · exact .inl ⟨c, frameError_mem hc, raise_next.mp (he.symm.trans h)⟩
        · exact .inr (.inl ⟨c, optError_mem hc, raise_next.mp (he.symm.trans h)⟩)
        · exact .inr (.inr ⟨hok, respond_next.mp (he.symm.trans h)⟩)
      · next hfew =>
        rw [delivers_iff, Nat.not_le] at hfew
        exact .inl ⟨hfew, (Host.Outcome.next.inj h).symm⟩
  · exact .inl ⟨_, by simp, rfl⟩

/-- RD: an index error or the value, and in either case LASTST is kept (R187). -/
theorem execRd_next {r : BitVec 8} (h : execRd r s = .next t) :
    (15 ≤ r.toNat ∧ t = s.answer .argIndex 0) ∨
    (r.toNat < 15 ∧ ∃ v, registerValue r.toNat s = some v ∧ t = s.answer .ok v) := by
  unfold execRd at h
  split at h
  · next hr => exact .inl ⟨hr, raiseQuietly_next.mp h⟩
  · next hr =>
    split at h
    · next v hv => exact .inr ⟨Nat.not_le.mp hr, v, hv, respondQuietly_next.mp h⟩
    · cases h

/-! ### Header words (R90) -/

theorem illegalWord_next (h : illegalWord s = .next t) : ErrsWith [.argIllegalCmd] s t :=
  ⟨_, by simp, raise_next.mp h⟩

end

end Sys2Proof.Machine
end

section
/-! PROOF. The CRC of a sequence as iterations of R111 (spec/40_crc.md): an iteration is linear over exclusive-or, and for a
polynomial with an x^0 term it loses nothing. -/

namespace Sys2Proof.Machine

/-! ### A half as two bytes -/

theorem beU16_of_bytes (c : BitVec 16) : beU16 (c.extractLsb' 8 8) (c.extractLsb' 0 8) = c := by
  unfold beU16
  ext i hi
  by_cases hlow : i < 8
  · simp [hlow, BitVec.getLsbD_eq_getElem hi]
  · have hbyte : i - 8 < 8 := by omega
    have hplace : 8 + (i - 8) = i := by omega
    simp [hlow, hbyte, hplace, BitVec.getLsbD_eq_getElem hi]

theorem beU16_eq_xor (hi lo : BitVec 8) : beU16 hi lo = (hi.setWidth 16 <<< 8) ^^^ lo.setWidth 16 := by
  unfold beU16
  ext i _
  by_cases hlow : i < 8
  · simp [hlow]
  · have hout : lo.getLsbD i = false := BitVec.getLsbD_of_ge _ _ (by omega)
    simp [hlow, hout]

theorem low_byte_shiftLeft (c : BitVec 16) : (c.extractLsb' 0 8).setWidth 16 <<< 8 = c <<< 8 := by
  ext i hi
  have hbyte : i - 8 < 8 := by omega
  have hplace : i - 8 < 16 := by omega
  simp [hbyte, BitVec.getLsbD_eq_getElem hplace]

section
variable (poly : BitVec 16)

/-! ### The iterations of R111 -/

theorem lutShift_eq_xor (c : BitVec 16) : lutShift poly c = (c <<< 1) ^^^ (if c.msb then poly else 0) := by
  unfold lutShift
  split <;> simp

theorem lutShift_xor (a b : BitVec 16) : lutShift poly (a ^^^ b) = lutShift poly a ^^^ lutShift poly b := by
  have hmask : (if (a ^^^ b).msb then poly else 0) = (if a.msb then poly else 0) ^^^ (if b.msb then poly else 0) := by
    rw [BitVec.msb_xor]
    cases a.msb <;> cases b.msb <;> simp
  rw [lutShift_eq_xor, lutShift_eq_xor, lutShift_eq_xor, hmask, BitVec.shiftLeft_xor_distrib]
  ac_rfl

theorem lutShifts_xor (k : Nat) : ∀ a b : BitVec 16,
    lutShifts poly k (a ^^^ b) = lutShifts poly k a ^^^ lutShifts poly k b := by
  induction k with
  | zero => exact fun _ _ => rfl
  | succ k ih => intro a b; rw [lutShifts, lutShift_xor, ih]; rfl

theorem lutShifts_add (m n : Nat) : ∀ c : BitVec 16,
    lutShifts poly (m + n) c = lutShifts poly n (lutShifts poly m c) := by
  induction m with
  | zero => intro c; rw [Nat.zero_add]; rfl
  | succ m ih => intro c; rw [Nat.succ_add, lutShifts, ih]; rfl

/-- While no bit reaches bit 15, an iteration only shifts. -/
theorem lutShifts_eq_shiftLeft (k : Nat) : ∀ c : BitVec 16, c.toNat * 2 ^ k < 2 ^ 16 →
    lutShifts poly k c = c <<< k := by
  induction k with
  | zero => intro c _; simp [lutShifts]
  | succ k ih =>
    intro c hc
    have hdouble : 2 * c.toNat * 2 ^ k < 2 ^ 16 := by rwa [Nat.pow_succ', ← Nat.mul_assoc, Nat.mul_comm c.toNat] at hc
    have hlow : 2 * c.toNat < 2 ^ 16 :=
      Nat.lt_of_le_of_lt (Nat.le_mul_of_pos_right _ (Nat.two_pow_pos k)) hdouble
    have hmsb : c.msb = false := BitVec.msb_eq_false_iff_two_mul_lt.mpr hlow
    have hshift : lutShift poly c = c <<< 1 := by simp [lutShift, hmsb]
    have hnat : (c <<< 1).toNat = 2 * c.toNat := by
      rw [BitVec.toNat_shiftLeft, Nat.shiftLeft_eq, Nat.pow_one, Nat.mul_comm, Nat.mod_eq_of_lt hlow]
    rw [lutShifts, hshift, ih _ (by rwa [hnat]), ← BitVec.shiftLeft_add, Nat.add_comm]

/-- Bit 0 after an iteration is the bit that was shifted out, so with an x^0 term only 0 becomes 0. -/
theorem eq_zero_of_lutShift_eq_zero (hodd : poly.getLsbD 0 = true) {c : BitVec 16} (h : lutShift poly c = 0) :
    c = 0 := by
  cases hmsb : c.msb with
  | true =>
    have hbit : (lutShift poly c).getLsbD 0 = true := by simpa [lutShift, hmsb] using hodd
    simp [h] at hbit
  | false =>
    have hshift : c <<< 1 = 0 := by simpa [lutShift, hmsb] using h
    have hlow := BitVec.msb_eq_false_iff_two_mul_lt.mp hmsb
    bv_omega

theorem eq_zero_of_lutShifts_eq_zero (hodd : poly.getLsbD 0 = true) (k : Nat) : ∀ c : BitVec 16,
    lutShifts poly k c = 0 → c = 0 := by
  induction k with
  | zero => exact fun _ h => h
  | succ k ih => exact fun c h => eq_zero_of_lutShift_eq_zero poly hodd (ih _ h)

/-! ### The table and its folds -/

/-- Every entry of the table is R111's (R112). -/
theorem read_lutTable (b : BitVec 8) : Memory.read (lutTable poly) b.toNat = lutEntry poly b := by
  have hb : b.toNat < 256 := b.isLt
  rw [lutTable, Memory.read_ofList, if_pos (by simpa [Config.lutSize] using hb)]
  simp [Config.lutSize, hb]

/-- A fold step over the table is eight iterations of R111 on the accumulator with the byte put in at its top. -/
theorem crcStep_lutTable (c : BitVec 16) (b : BitVec 8) :
    crcStep (lutTable poly) c b = lutShifts poly 8 (c ^^^ (b.setWidth 16 <<< 8)) := by
  have hbytes : c ^^^ (b.setWidth 16 <<< 8) =
      ((c.extractLsb' 8 8 ^^^ b).setWidth 16 <<< 8) ^^^ (c.extractLsb' 0 8).setWidth 16 := by
    conv_lhs => rw [← beU16_of_bytes c, beU16_eq_xor]
    rw [BitVec.setWidth_xor, BitVec.shiftLeft_xor_distrib]
    ac_rfl
  have hlow : lutShifts poly 8 ((c.extractLsb' 0 8).setWidth 16) = c <<< 8 := by
    rw [lutShifts_eq_shiftLeft poly 8 _ (by simp; omega), low_byte_shiftLeft]
  rw [crcStep, read_lutTable, lutEntry, hbytes, lutShifts_xor, hlow, BitVec.xor_comm]

/-- Two bytes behind a sequence: sixteen iterations on what its CRC and the two bytes differ in. -/
theorem crc16_append_two (d : List (BitVec 8)) (hi lo : BitVec 8) :
    crc16 (lutTable poly) (d ++ [hi, lo]) = lutShifts poly 16 (crc16 (lutTable poly) d ^^^ beU16 hi lo) := by
  have hlo : lutShifts poly 8 (lo.setWidth 16) = lo.setWidth 16 <<< 8 :=
    lutShifts_eq_shiftLeft poly 8 _ (by simp; omega)
  rw [crc16_append, List.foldl_cons, List.foldl_cons, List.foldl_nil, crcStep_lutTable, crcStep_lutTable, ← hlo,
    ← lutShifts_xor, ← lutShifts_add, beU16_eq_xor, BitVec.xor_assoc]

end

/-- Settles O12: sixteen iterations give 0 only from 0, so the two bytes and the CRC before them differ in nothing. -/
theorem trailerIsTheCrcForOddPolynomials : Obligations.TrailerIsTheCrcForOddPolynomials := by
  intro poly d hi lo hodd hresidual
  rw [crc16_append_two] at hresidual
  exact (BitVec.xor_eq_zero_iff.mp (eq_zero_of_lutShifts_eq_zero poly hodd 16 _ hresidual)).symm

end Sys2Proof.Machine
end

section
/-! PROOF. The invariant of spec/10_state.md R50: one lemma for each update of State, one for each command that writes
more than a register group, then every step. -/

namespace Sys2Proof.Machine

/-- Settles O49: LUTV and SESS are 0 and the memories are empty, so each item is about values of R52. -/
theorem invariantHoldsAtReset : Obligations.InvariantHoldsAtReset where
  bufsz_legal := by decide
  frmlen_le := by decide
  ackf_le := by decide
  psize_legal := by decide
  pktnum_lt := by decide
  table := nofun
  session := by decide
  no_session := by decide
  lut_form := by decide
  pld_form := by decide
  frm_form := by decide

/-- The four sizes of R146. -/
theorem classSize_legal (cls : BitVec 2) : classSize cls ∈ [0, 32, 64, 128, 256] := by
  revert cls
  decide

section
variable {s : State} (h : Invariant s)
include h

/-! ### What every update keeps -/

/-- LUTGEN writes the table of its polynomial, in canonical form. -/
theorem Invariant.setTable (poly : BitVec 16) : Invariant (s.setTable (lutTable poly) poly) :=
  { h with
    table := fun _ => read_lutTable poly
    session := fun hsess => ⟨rfl, (h.session hsess).2⟩
    lut_form := ⟨Memory.wf_ofList _ _, Memory.within_ofList _ _ (by simp [Config.lutSize])⟩ }

theorem Invariant.setCrcacc (c : BitVec 16) : Invariant (s.setCrcacc c) := { h with }

theorem Invariant.setHeader (hd : Header) : Invariant (s.setHeader hd) := { h with pktnum_lt := hd.pn.isLt }

theorem Invariant.setPld {m : Memory 8} (hwf : Memory.wf m = true) (hin : Memory.within 256 m = true) :
    Invariant (s.setPld m) := { h with pld_form := ⟨hwf, hin⟩ }

/-- Bytes written within PLD keep its form. -/
theorem Invariant.setPld_writeSeq (a : Nat) (vs : List (BitVec 8)) (ha : a + vs.length ≤ 256) :
    Invariant (s.setPld (Memory.writeSeq s.pld a vs)) :=
  h.setPld (Memory.wf_writeSeq vs _ _ h.pld_form.1) (Memory.within_writeSeq vs _ _ ha h.pld_form.2)

theorem Invariant.setBufsz {v : BitVec 16} (hv : v ∈ [0, 32, 64, 128, 256]) : Invariant (s.setBufsz v) :=
  { h with bufsz_legal := hv }

theorem Invariant.setCrc16 (c : BitVec 16) : Invariant (s.setCrc16 c) := { h with }

theorem Invariant.setFrm {m : Memory 8} (hwf : Memory.wf m = true) (hin : Memory.within 262 m = true) :
    Invariant (s.setFrm m) := { h with frm_form := ⟨hwf, hin⟩ }

/-- Bytes written within FRM keep its form. -/
theorem Invariant.setFrm_writeSeq (a : Nat) (vs : List (BitVec 8)) (ha : a + vs.length ≤ 262) :
    Invariant (s.setFrm (Memory.writeSeq s.frm a vs)) :=
  h.setFrm (Memory.wf_writeSeq vs _ _ h.frm_form.1) (Memory.within_writeSeq vs _ _ ha h.frm_form.2)

theorem Invariant.setFrmlen {n : Nat} (hn : n ≤ 262) : Invariant (s.setFrmlen n) :=
  { h with frmlen_le := (Nat.mod_le _ _).trans hn }

/-- R183: the options are written and the session starts together, so that item 8 of R50 holds on no state between. -/
theorem Invariant.startSession {o : Options} (hlutv : s.lutv = true) (hackf : o.ackf.toNat ≤ 7)
    (hpsize : o.psize ∈ [32, 64, 128, 256]) : Invariant (((s.setOptions o).setBufsz o.psize).startSession) :=
  { h with
    bufsz_legal := List.mem_cons_of_mem _ hpsize
    psize_legal := List.mem_cons_of_mem _ hpsize
    ackf_le := hackf
    session := fun _ => ⟨hlutv, hpsize, hackf⟩
    no_session := nofun }

/-- SESSEND writes the reset values of R52 to the registers and memories of R49 (R186). -/
theorem Invariant.clearInstance : Invariant s.clearInstance :=
  { invariantHoldsAtReset with
    table := h.table
    session := nofun
    lut_form := h.lut_form }

theorem Invariant.setInbox (rest : List HostEvent) : Invariant (s.setInbox rest) := { h with }

theorem Invariant.finish (c : Status) (v : BitVec 32) : Invariant (s.finish c v) := { h with }

theorem Invariant.answer (c : Status) (v : BitVec 32) : Invariant (s.answer c v) := { h with }

theorem Invariant.hang : Invariant s.hang := { h with }

theorem Invariant.send (bytes : List (BitVec 8)) : Invariant (s.send bytes) := { h with }

theorem Invariant.receive {n : Nat} (hn : n ≤ 262) : Invariant (s.receive n) :=
  have hlen : 0 + (s.rxq.take n).length ≤ 262 := by
    rw [Nat.zero_add]
    exact (List.length_take_le n s.rxq).trans hn
  { h with frm_form := (h.setFrm_writeSeq 0 (s.rxq.take n) hlen).frm_form }

/-- A command that ends with an error keeps the invariant of the state it read. -/
theorem Invariant.errsWith {causes : List Status} {t : State} (herr : ErrsWith causes s t) : Invariant t := by
  obtain ⟨c, -, rfl⟩ := herr
  exact h.finish c 0

/-! ### The commands that write more than one register group -/

/-- A frame of R151 is `BUFSZ + 6` bytes long. -/
theorem Invariant.serialized (hsize : s.bufsz.toNat ≤ 256) : Invariant (serialized s) := by
  refine ((h.setFrm_writeSeq 0 _ ?_).setFrmlen ?_).setCrc16 _
  · simp [frameOf, hdrPack, be16]
    omega
  · rw [frameLen_eq]
    omega

theorem Invariant.commitFrame {size : Nat} (hsize : size ≤ 256) : Invariant (commitFrame size s) :=
  ((h.setHeader _).setPld_writeSeq 0 _ (by simpa using hsize)).setCrc16 _

theorem Invariant.handshakeTaken : Invariant (handshakeTaken s) := (h.setBufsz (by decide)).receive (by decide)

theorem Invariant.handshakeReceived : Invariant (handshakeReceived s) := h.handshakeTaken.setFrmlen (by decide)

theorem Invariant.handshakeCommitted : Invariant (handshakeCommitted s) := h.handshakeReceived.commitFrame (by decide)

/-- The session starts with a table and with options that R181 accepts. -/
theorem Invariant.handshakeStarted (hlutv : s.lutv = true)
    (hok : optError (handshakeOptions s).ackf (handshakeOptions s).psize = none) : Invariant (handshakeStarted s) := by
  rcases optError_cases (handshakeOptions s).ackf (handshakeOptions s).psize with ⟨-, he⟩ | ⟨-, -, he⟩ | ⟨hackf, hpsize, -⟩
  · simp [he] at hok
  · simp [he] at hok
  · exact h.handshakeCommitted.startSession hlutv hackf hpsize

theorem execRx_keeps_invariant {t : State} (hexec : execRx s = .next t) : Invariant t := by
  rcases execRx_next hexec with herr | ⟨hsize, -, rfl⟩ | ⟨hsize, -, rfl⟩
  · exact h.errsWith herr
  · exact ((h.receive (by omega)).setFrmlen (by omega)).finish _ _
  · exact (h.receive (by omega)).hang

theorem execHsk_keeps_invariant {t : State} (hexec : execHsk s = .next t) : Invariant t := by
  rcases execHsk_next hexec with herr | ⟨hlutv, -, ⟨-, rfl⟩ | ⟨-, herr | herr | ⟨hok, rfl⟩⟩⟩
  · exact h.errsWith herr
  · exact h.handshakeTaken.hang
  · exact h.handshakeReceived.errsWith herr
  · exact h.handshakeCommitted.errsWith herr
  · exact (h.handshakeStarted hlutv hok).finish _ _

/-! ### Every command and every step -/

theorem exec_keeps_invariant {i : Instr} {t : State} (hexec : exec i s = .next t) : Invariant t := by
  cases i with
  | lutgen poly =>
    rcases execLutgen_next hexec with herr | ⟨-, rfl⟩
    · exact h.errsWith herr
    · exact (h.setTable poly).finish _ _
  | crcinit => exact respond_next.mp hexec ▸ (h.setCrcacc 0).finish _ _
  | crcb b =>
    rcases execCrcb_next hexec with herr | ⟨-, rfl⟩
    · exact h.errsWith herr
    · exact (h.setCrcacc _).finish _ _
  | lutrd i =>
    rcases execLutrd_next hexec with herr | ⟨-, rfl⟩
    · exact h.errsWith herr
    · exact h.finish _ _
  | hdrmk op len ack pn16 => exact respond_next.mp hexec ▸ (h.setHeader _).finish _ _
  | hdrchk =>
    rcases execHdrchk_next hexec with herr | ⟨-, rfl⟩
    · exact h.errsWith herr
    · exact h.finish _ _
  | hdrpk => exact respond_next.mp hexec ▸ h.finish _ _
  | setsz cls => exact respond_next.mp hexec ▸ (h.setBufsz (classSize_legal cls)).finish _ _
  | pldclr =>
    rcases execPldclr_next hexec with herr | ⟨hsize, rfl⟩
    · exact h.errsWith herr
    · exact (h.setPld_writeSeq 0 _ (by simpa using hsize)).finish _ _
  | pldw idx b =>
    rcases execPldw_next hexec with herr | ⟨-, rfl⟩
    · exact h.errsWith herr
    · exact (h.setPld_writeSeq idx.toNat [b] idx.isLt).finish _ _
  | pldrd idx => exact respond_next.mp hexec ▸ h.finish _ _
  | ser cap =>
    rcases execSer_next hexec with herr | ⟨-, hsize, -, rfl⟩
    · exact h.errsWith herr
    · exact (h.serialized hsize).finish _ _
  | des =>
    rcases execDes_next hexec with herr | ⟨-, hsize, -, -, rfl⟩
    · exact h.errsWith herr
    · exact (h.commitFrame hsize).finish _ _
  | frmclr => exact respond_next.mp hexec ▸ (h.setFrmlen (Nat.zero_le _)).finish _ _
  | frmb b =>
    rcases execFrmb_next hexec with herr | ⟨hlen, rfl⟩
    · exact h.errsWith herr
    · exact ((h.setFrm_writeSeq s.frmlen.toNat [b] hlen).setFrmlen hlen).finish _ _
  | frmrd idx =>
    rcases execFrmrd_next hexec with herr | ⟨-, rfl⟩
    · exact h.errsWith herr
    · exact h.finish _ _
  | tx =>
    obtain ⟨-, rfl⟩ := execTx_next hexec
    exact (h.send _).finish _ _
  | rx => exact execRx_keeps_invariant h hexec
  | hsk => exact execHsk_keeps_invariant h hexec
  | sessend => exact respond_next.mp hexec ▸ h.clearInstance.finish _ _
  | rd r =>
    rcases execRd_next hexec with ⟨-, rfl⟩ | ⟨-, v, -, rfl⟩
    · exact h.answer _ _
    · exact h.answer _ _
  | wirehdrConnect | wirehdrDisconnect | wirehdrData | wirehdrError => exact h.errsWith (illegalWord_next hexec)

end

/-- RESET from any state: the invariant says nothing of what RESET keeps. -/
theorem invariant_applyReset (s : State) : Invariant s.applyReset := { invariantHoldsAtReset with }

/-- RESET during a command: where the command does not stop the machine, the block is reset. -/
theorem abandon_keeps_invariant {i : Instr} {k : Nat} {s t : State} (h : abandon i k s = .next t) : Invariant t := by
  rcases abandon_cases i k s with ⟨u, -, he⟩ | ⟨r, -, he⟩ | ⟨r, -, he⟩
  · rw [← Host.Outcome.next.inj (he.symm.trans h)]
    exact invariant_applyReset _
  · cases he.symm.trans h
  · cases he.symm.trans h

/-- Settles O50: a step is nothing, a RESET, a command, a word not performed, or a command with RESET during it. -/
theorem everyStepKeepsTheInvariant : Obligations.EveryStepKeepsTheInvariant := by
  intro s t hs hstep
  rcases step_cases hstep with ⟨he, -⟩ | ⟨rest, -, he⟩ | ⟨cw, rest, i, -, -, -, he⟩ | ⟨cw, rest, e, -, -, -, he⟩ |
    ⟨cw, k, rest, i, -, -, -, he⟩ | ⟨cw, k, rest, e, -, -, -, he⟩
  · exact Host.Outcome.next.inj he ▸ hs
  · exact Host.Outcome.next.inj he ▸ invariant_applyReset _
  · exact exec_keeps_invariant (hs.setInbox rest) he.symm
  · exact raise_next.mp he.symm ▸ (hs.setInbox rest).finish _ _
  · exact abandon_keeps_invariant he.symm
  · exact Host.Outcome.next.inj he ▸ invariant_applyReset _

end Sys2Proof.Machine
end

section
/-! PROOF. The write sets of spec/10_state.md R48: what each update of State leaves unchanged, then every command. -/

namespace Sys2Proof.Machine

/-! ### The frame relation -/

theorem Unchanged.trans {x : StateItem} {s t u : State} (hst : Unchanged x s t) (htu : Unchanged x t u) :
    Unchanged x s u := by
  cases x with
  | lut | pld | frm => exact fun a => (htu a).trans (hst a)
  | _ => exact Eq.trans htu hst

theorem keepsAllBut_self (written : List StateItem) (s : State) : KeepsAllBut written s s := by
  intro x _
  cases x <;> simp [Unchanged]

theorem KeepsAllBut.mono {written written' : List StateItem} {s t : State} (h : KeepsAllBut written s t)
    (hsub : written ⊆ written') : KeepsAllBut written' s t :=
  fun x hx => h x fun hmem => hx (hsub hmem)

/-- One change after the other: both write sets. -/
theorem KeepsAllBut.then {written written' : List StateItem} {s t u : State} (hst : KeepsAllBut written s t)
    (htu : KeepsAllBut written' t u) : KeepsAllBut (written ++ written') s u := by
  intro x hx
  rw [List.mem_append, not_or] at hx
  exact (hst x hx.1).trans (htu x hx.2)

/-! ### What each update leaves unchanged: a listed piece is excluded, every other piece is one of the update's laws -/

section
variable (s : State)

theorem keeps_setTable (m : Memory 16) (poly : BitVec 16) : KeepsAllBut [.lut, .poly, .lutv] s (s.setTable m poly) := by
  intro x hx
  cases x <;> simp [Unchanged] at hx ⊢

theorem keeps_setCrcacc (c : BitVec 16) : KeepsAllBut [.crcacc] s (s.setCrcacc c) := by
  intro x hx
  cases x <;> simp [Unchanged] at hx ⊢

theorem keeps_setHeader (h : Header) : KeepsAllBut headerItems s (s.setHeader h) := by
  intro x hx
  cases x <;> simp [headerItems, Unchanged] at hx ⊢

theorem keeps_setPld (m : Memory 8) : KeepsAllBut [.pld] s (s.setPld m) := by
  intro x hx
  cases x <;> simp [Unchanged] at hx ⊢

theorem keeps_setBufsz (v : BitVec 16) : KeepsAllBut [.bufsz] s (s.setBufsz v) := by
  intro x hx
  cases x <;> simp [Unchanged] at hx ⊢

theorem keeps_setCrc16 (c : BitVec 16) : KeepsAllBut [.crc16] s (s.setCrc16 c) := by
  intro x hx
  cases x <;> simp [Unchanged] at hx ⊢

theorem keeps_setOptions (o : Options) : KeepsAllBut [.ackf, .npkt, .psize] s (s.setOptions o) := by
  intro x hx
  cases x <;> simp [Unchanged] at hx ⊢

theorem keeps_setFrm (m : Memory 8) : KeepsAllBut [.frm] s (s.setFrm m) := by
  intro x hx
  cases x <;> simp [Unchanged] at hx ⊢

theorem keeps_setFrmlen (n : Nat) : KeepsAllBut [.frmlen] s (s.setFrmlen n) := by
  intro x hx
  cases x <;> simp [Unchanged] at hx ⊢

theorem keeps_startSession : KeepsAllBut [.sess] s s.startSession := by
  intro x hx
  cases x <;> simp [Unchanged] at hx ⊢

theorem keeps_clearInstance : KeepsAllBut (writeSet .sessend) s s.clearInstance := by
  intro x hx
  cases x <;> simp [writeSet, headerItems, Unchanged] at hx ⊢

theorem keeps_finish (c : Status) (v : BitVec 32) : KeepsAllBut endingItems s (s.finish c v) := by
  intro x hx
  cases x <;> simp [endingItems, Unchanged] at hx ⊢

theorem keeps_answer (c : Status) (v : BitVec 32) : KeepsAllBut [.response] s (s.answer c v) := by
  intro x hx
  cases x <;> simp [Unchanged] at hx ⊢

theorem keeps_hang : KeepsAllBut [.response, .waiting] s s.hang := by
  intro x hx
  cases x <;> simp [Unchanged] at hx ⊢

theorem keeps_send (bytes : List (BitVec 8)) : KeepsAllBut [.txlog] s (s.send bytes) := by
  intro x hx
  cases x <;> simp [Unchanged] at hx ⊢

theorem keeps_receive (n : Nat) : KeepsAllBut [.frm, .rxq] s (s.receive n) := by
  intro x hx
  cases x <;> simp [Unchanged] at hx ⊢

/-! ### The states that the longer commands write -/

theorem keeps_serialized : KeepsAllBut [.frm, .frmlen, .crc16] s (serialized s) :=
  ((keeps_setFrm s _).then (keeps_setFrmlen _ _)).then (keeps_setCrc16 _ _)

theorem keeps_commitFrame (size : Nat) : KeepsAllBut (headerItems ++ [.pld, .crc16]) s (commitFrame size s) :=
  ((keeps_setHeader s _).then (keeps_setPld _ _)).then (keeps_setCrc16 _ _)

theorem keeps_handshakeTaken : KeepsAllBut [.bufsz, .frm, .rxq] s (handshakeTaken s) :=
  (keeps_setBufsz s 32).then (keeps_receive _ 38)

theorem keeps_handshakeReceived : KeepsAllBut [.bufsz, .frm, .rxq, .frmlen] s (handshakeReceived s) :=
  (keeps_handshakeTaken s).then (keeps_setFrmlen _ 38)

theorem keeps_handshakeCommitted :
    KeepsAllBut ([.bufsz, .frm, .rxq, .frmlen] ++ (headerItems ++ [.pld, .crc16])) s (handshakeCommitted s) :=
  (keeps_handshakeReceived s).then (keeps_commitFrame _ 32)

/-- What HSK writes once the frame it received is committed: the options, the size and the session. -/
theorem keeps_handshakeStarted :
    KeepsAllBut [.ackf, .npkt, .psize, .bufsz, .sess] (handshakeCommitted s) (handshakeStarted s) :=
  ((keeps_setOptions _ _).then (keeps_setBufsz _ _)).then (keeps_startSession _)

end

/-! ### Every command -/

/-- The two clauses of R48: the write set and the ending; of an error, the ending alone, but for HSK. -/
def WithinWriteSet (i : Instr) (s t : State) : Prop :=
  KeepsAllBut (writeSet i ++ endingSet i) s t ∧
  ∀ r, i ≠ .hsk → t.response = some r → r.st ≠ 0x00 → KeepsAllBut (endingSet i) s t

section
variable {i : Instr} {s t u : State}

theorem withinWriteSet_of_ending (h : KeepsAllBut (endingSet i) s t) : WithinWriteSet i s t :=
  ⟨h.mono (List.subset_append_right _ _), fun _ _ _ _ => h⟩

/-- A command that errs, other than RD, writes LASTST and the response. -/
theorem withinWriteSet_of_errsWith {causes : List Status} (hending : endingSet i = endingItems)
    (herr : ErrsWith causes s t) : WithinWriteSet i s t := by
  obtain ⟨c, -, rfl⟩ := herr
  exact withinWriteSet_of_ending (hending ▸ keeps_finish s c 0)

/-- A command that ends with OK, other than RD: the second clause asks for nothing. -/
theorem withinWriteSet_of_ok {v : BitVec 32} (hending : endingSet i = endingItems)
    (h : KeepsAllBut (writeSet i) s u) : WithinWriteSet i s (u.finish .ok v) := by
  refine ⟨hending ▸ h.then (keeps_finish u .ok v), fun r _ hr hst => absurd ?_ hst⟩
  rw [← Option.some.inj hr]
  rfl

/-- A command that only answers has nothing to write. -/
theorem withinWriteSet_of_answer {v : BitVec 32} (hending : endingSet i = endingItems) :
    WithinWriteSet i s (s.finish .ok v) :=
  withinWriteSet_of_ok hending (keepsAllBut_self _ s)

theorem execRx_withinWriteSet (h : execRx s = .next t) : WithinWriteSet .rx s t := by
  rcases execRx_next h with herr | ⟨-, -, rfl⟩ | ⟨-, -, rfl⟩
  · exact withinWriteSet_of_errsWith rfl herr
  · exact withinWriteSet_of_ok rfl (((keeps_receive s _).then (keeps_setFrmlen _ _)).mono (by decide))
  · refine ⟨((keeps_receive s _).then (keeps_hang _)).mono (by decide), ?_⟩
    exact fun r _ hr => nomatch hr

theorem execHsk_withinWriteSet (h : execHsk s = .next t) : WithinWriteSet .hsk s t := by
  refine ⟨?_, fun _ hne => absurd rfl hne⟩
  rcases execHsk_next h with ⟨c, -, rfl⟩ | ⟨-, -, ⟨-, rfl⟩ | ⟨-, ⟨c, -, rfl⟩ | ⟨c, -, rfl⟩ | ⟨-, rfl⟩⟩⟩
  · exact (keeps_finish s c 0).mono (List.subset_append_right _ _)
  · exact ((keeps_handshakeTaken s).then (keeps_hang _)).mono (by decide)
  · exact ((keeps_handshakeReceived s).then (keeps_finish _ c 0)).mono (by decide)
  · exact ((keeps_handshakeCommitted s).then (keeps_finish _ c 0)).mono (by decide)
  · exact (((keeps_handshakeCommitted s).then (keeps_handshakeStarted s)).then (keeps_finish _ _ _)).mono (by decide)

theorem exec_withinWriteSet (h : exec i s = .next t) : WithinWriteSet i s t := by
  cases i with
  | lutgen poly =>
    rcases execLutgen_next h with herr | ⟨-, rfl⟩
    · exact withinWriteSet_of_errsWith rfl herr
    · exact withinWriteSet_of_ok rfl (keeps_setTable s _ _)
  | crcinit => exact respond_next.mp h ▸ withinWriteSet_of_ok rfl (keeps_setCrcacc s _)
  | crcb b =>
    rcases execCrcb_next h with herr | ⟨-, rfl⟩
    · exact withinWriteSet_of_errsWith rfl herr
    · exact withinWriteSet_of_ok rfl (keeps_setCrcacc s _)
  | lutrd i =>
    rcases execLutrd_next h with herr | ⟨-, rfl⟩
    · exact withinWriteSet_of_errsWith rfl herr
    · exact withinWriteSet_of_answer rfl
  | hdrmk op len ack pn16 => exact respond_next.mp h ▸ withinWriteSet_of_ok rfl (keeps_setHeader s _)
  | hdrchk =>
    rcases execHdrchk_next h with herr | ⟨-, rfl⟩
    · exact withinWriteSet_of_errsWith rfl herr
    · exact withinWriteSet_of_answer rfl
  | hdrpk => exact respond_next.mp h ▸ withinWriteSet_of_answer rfl
  | setsz cls => exact respond_next.mp h ▸ withinWriteSet_of_ok rfl (keeps_setBufsz s _)
  | pldclr =>
    rcases execPldclr_next h with herr | ⟨-, rfl⟩
    · exact withinWriteSet_of_errsWith rfl herr
    · exact withinWriteSet_of_ok rfl (keeps_setPld s _)
  | pldw idx b =>
    rcases execPldw_next h with herr | ⟨-, rfl⟩
    · exact withinWriteSet_of_errsWith rfl herr
    · exact withinWriteSet_of_ok rfl (keeps_setPld s _)
  | pldrd idx => exact respond_next.mp h ▸ withinWriteSet_of_answer rfl
  | ser cap =>
    rcases execSer_next h with herr | ⟨-, -, -, rfl⟩
    · exact withinWriteSet_of_errsWith rfl herr
    · exact withinWriteSet_of_ok rfl (keeps_serialized s)
  | des =>
    rcases execDes_next h with herr | ⟨-, -, -, -, rfl⟩
    · exact withinWriteSet_of_errsWith rfl herr
    · exact withinWriteSet_of_ok rfl (keeps_commitFrame s _)
  | frmclr => exact respond_next.mp h ▸ withinWriteSet_of_ok rfl (keeps_setFrmlen s _)
  | frmb b =>
    rcases execFrmb_next h with herr | ⟨-, rfl⟩
    · exact withinWriteSet_of_errsWith rfl herr
    · exact withinWriteSet_of_ok rfl ((keeps_setFrm s _).then (keeps_setFrmlen _ _))
  | frmrd idx =>
    rcases execFrmrd_next h with herr | ⟨-, rfl⟩
    · exact withinWriteSet_of_errsWith rfl herr
    · exact withinWriteSet_of_answer rfl
  | tx =>
    obtain ⟨-, rfl⟩ := execTx_next h
    exact withinWriteSet_of_ok rfl (keeps_send s _)
  | rx => exact execRx_withinWriteSet h
  | hsk => exact execHsk_withinWriteSet h
  | sessend => exact respond_next.mp h ▸ withinWriteSet_of_ok rfl (keeps_clearInstance s)
  | rd r =>
    rcases execRd_next h with ⟨-, rfl⟩ | ⟨-, v, -, rfl⟩
    · exact withinWriteSet_of_ending (keeps_answer s _ _)
    · exact withinWriteSet_of_ending (keeps_answer s _ _)
  | wirehdrConnect | wirehdrDisconnect | wirehdrData | wirehdrError =>
    exact withinWriteSet_of_errsWith rfl (illegalWord_next h)

end

/-- Settles O53, by the next states of each command. -/
theorem commandsWriteOnlyTheirWriteSets : Obligations.CommandsWriteOnlyTheirWriteSets :=
  fun _ _ _ h => exec_withinWriteSet h

end Sys2Proof.Machine
end

section
/-! PROOF. What a command does not depend on: a command that ends alike under a change of the state it reads (R25, R28). -/

namespace Sys2Proof.Machine

/-! ### A change of the state, carried through a command -/

/-- The outcome with its next state, if it has one, changed. -/
def mapNext (f : State → State) : Result → Result
  | .next t => .next (f t)
  | .fault e => .fault e
  | .refused e => .refused e

section
variable {f : State → State} {s : State} {r : Result}

theorem mapNext_raise {c : Status} (hfinish : f (s.finish c 0) = (f s).finish c 0) :
    mapNext f (raise c s) = raise c (f s) := congrArg Host.Outcome.next hfinish

/-- A check of LUTV, under a change that keeps LUTV and goes through the error's ending. -/
theorem mapNext_requireTable (hlutv : (f s).lutv = s.lutv)
    (hfinish : f (s.finish .stateNoLut 0) = (f s).finish .stateNoLut 0) :
    mapNext f (requireTable s r) = requireTable (f s) (mapNext f r) := by
  rw [requireTable, requireTable, hlutv, apply_ite (mapNext f), mapNext_raise hfinish]

/-- A check of BUFSZ, under a change that keeps BUFSZ and goes through the error's ending. -/
theorem mapNext_requireSize (hbufsz : (f s).bufsz = s.bufsz)
    (hfinish : f (s.finish .stateNoSize 0) = (f s).finish .stateNoSize 0) :
    mapNext f (requireSize s r) = requireSize (f s) (mapNext f r) := by
  rw [requireSize, requireSize, hbufsz, apply_ite (mapNext f), mapNext_raise hfinish]

theorem mapNext_accessPld (n : Nat) : mapNext f (accessPld n r) = accessPld n (mapNext f r) :=
  apply_ite (mapNext f) _ _ _

theorem mapNext_accessFrm (n : Nat) : mapNext f (accessFrm n r) = accessFrm n (mapNext f r) :=
  apply_ite (mapNext f) _ _ _

end

/-! ### CRCACC (R28) -/

section
variable (c : BitVec 16) (s : State)

theorem execSer_setCrcacc (cap : BitVec 16) :
    execSer cap (s.setCrcacc c) = mapNext (·.setCrcacc c) (execSer cap s) := by
  rw [execSer, execSer, mapNext_requireTable rfl rfl, mapNext_requireSize rfl rfl, apply_ite (mapNext _),
    mapNext_accessPld, mapNext_accessFrm]
  rfl

theorem execDes_setCrcacc : execDes (s.setCrcacc c) = mapNext (·.setCrcacc c) (execDes s) := by
  rw [execDes, execDes, mapNext_requireTable rfl rfl, mapNext_requireSize rfl rfl, apply_ite (mapNext _),
    mapNext_accessPld, mapNext_accessFrm]
  rw [show frameError (s.setCrcacc c).bufsz.toNat (s.setCrcacc c) = frameError s.bufsz.toNat s from rfl]
  cases frameError s.bufsz.toNat s <;> rfl

theorem execTx_setCrcacc : execTx (s.setCrcacc c) = mapNext (·.setCrcacc c) (execTx s) := by
  rw [execTx, execTx, mapNext_accessFrm]
  rfl

theorem execRx_setCrcacc : execRx (s.setCrcacc c) = mapNext (·.setCrcacc c) (execRx s) := by
  rw [execRx, execRx, mapNext_requireSize rfl rfl, mapNext_accessFrm, apply_ite (mapNext _)]
  rfl

theorem acceptOptions_setCrcacc :
    acceptOptions (s.setCrcacc c) = mapNext (·.setCrcacc c) (acceptOptions s) := by
  rw [acceptOptions, acceptOptions]
  dsimp only [State.setCrcacc_pld]
  cases optError (optExtract (Memory.read s.pld)).ackf (optExtract (Memory.read s.pld)).psize <;> rfl

theorem acceptHandshake_setCrcacc :
    acceptHandshake (s.setCrcacc c) = mapNext (·.setCrcacc c) (acceptHandshake s) := by
  rw [acceptHandshake, acceptHandshake,
    show frameError Config.hskSize (s.setCrcacc c) = frameError Config.hskSize s from rfl]
  cases frameError Config.hskSize s with
  | some e => rfl
  | none => exact acceptOptions_setCrcacc c (commitFrame Config.hskSize s)

theorem execHsk_setCrcacc : execHsk (s.setCrcacc c) = mapNext (·.setCrcacc c) (execHsk s) := by
  rw [execHsk, execHsk, mapNext_requireTable rfl rfl, apply_ite (mapNext _), apply_ite (mapNext _),
    ← acceptHandshake_setCrcacc]
  rfl

end

/-- Settles O57, command by command: each of the five ends alike under a change of CRCACC. -/
theorem codecDoesNotUseTheAccumulator : Obligations.CodecDoesNotUseTheAccumulator := by
  intro i c s hi
  have halike : exec i (s.setCrcacc c) = mapNext (·.setCrcacc c) (exec i s) := by
    rcases hi with ⟨cap, rfl⟩ | rfl | rfl | rfl | rfl
    · exact execSer_setCrcacc c s cap
    · exact execDes_setCrcacc c s
    · exact execHsk_setCrcacc c s
    · exact execTx_setCrcacc c s
    · exact execRx_setCrcacc c s
  exact ⟨fun t ht => halike.trans (congrArg (mapNext _) ht), fun e he => halike.trans (congrArg (mapNext _) he)⟩

/-! ### LUT while LUTV is 0 (R25, R27) -/

/-- The state with another content of LUT. -/
def State.withLut (s : State) (m : Memory 16) : State := { s with lut := m }

section
variable (m : Memory 16) (s : State)

theorem keeps_withLut : KeepsAllBut [.lut] s (s.withLut m) := by
  intro x hx
  cases x <;> simp [State.withLut, Unchanged] at hx ⊢

/-- A command that needs a table ends with STATE_NO_LUT, whatever it would have done with LUT. -/
theorem requireTable_withLut {s : State} (hlutv : s.lutv = false) (r r' : Result) :
    requireTable (s.withLut m) r' = mapNext (·.withLut m) (requireTable s r) := by
  rw [requireTable_of_no_table r hlutv, requireTable_of_no_table (s := s.withLut m) r' hlutv]
  rfl

theorem execHdrchk_withLut : execHdrchk (s.withLut m) = mapNext (·.withLut m) (execHdrchk s) := by
  rw [execHdrchk, execHdrchk, apply_ite (mapNext _)]
  rfl

theorem execPldclr_withLut : execPldclr (s.withLut m) = mapNext (·.withLut m) (execPldclr s) := by
  rw [execPldclr, execPldclr, mapNext_requireSize rfl rfl, mapNext_accessPld]
  rfl

theorem execPldw_withLut (idx b : BitVec 8) :
    execPldw idx b (s.withLut m) = mapNext (·.withLut m) (execPldw idx b s) := by
  rw [execPldw, execPldw, mapNext_requireSize rfl rfl, apply_ite (mapNext _)]
  rfl

theorem execFrmb_withLut (b : BitVec 8) : execFrmb b (s.withLut m) = mapNext (·.withLut m) (execFrmb b s) := by
  rw [execFrmb, execFrmb, apply_ite (mapNext _), mapNext_accessFrm]
  rfl

theorem execFrmrd_withLut (idx : BitVec 16) :
    execFrmrd idx (s.withLut m) = mapNext (·.withLut m) (execFrmrd idx s) := by
  rw [execFrmrd, execFrmrd, apply_ite (mapNext _)]
  rfl

theorem execTx_withLut : execTx (s.withLut m) = mapNext (·.withLut m) (execTx s) := by
  rw [execTx, execTx, mapNext_accessFrm]
  rfl

theorem execRx_withLut : execRx (s.withLut m) = mapNext (·.withLut m) (execRx s) := by
  rw [execRx, execRx, mapNext_requireSize rfl rfl, mapNext_accessFrm, apply_ite (mapNext _)]
  rfl

theorem execRd_withLut (r : BitVec 8) : execRd r (s.withLut m) = mapNext (·.withLut m) (execRd r s) := by
  have hvalue : registerValue r.toNat (s.withLut m) = registerValue r.toNat s := rfl
  rw [execRd, execRd, apply_ite (mapNext _), hvalue]
  cases registerValue r.toNat s <;> rfl

/-- No command but LUTGEN tells what LUT holds: it needs a table, or it does not read LUT. -/
theorem exec_withLut {s : State} (hlutv : s.lutv = false) {i : Instr} (hi : ∀ poly, i ≠ .lutgen poly) :
    exec i (s.withLut m) = mapNext (·.withLut m) (exec i s) := by
  cases i with
  | lutgen poly => exact absurd rfl (hi poly)
  | crcb | lutrd | ser | des | hsk => exact requireTable_withLut m hlutv _ _
  | hdrchk => exact execHdrchk_withLut m s
  | pldclr => exact execPldclr_withLut m s
  | pldw idx b => exact execPldw_withLut m s idx b
  | frmb b => exact execFrmb_withLut m s b
  | frmrd idx => exact execFrmrd_withLut m s idx
  | tx => exact execTx_withLut m s
  | rx => exact execRx_withLut m s
  | rd r => exact execRd_withLut m s r
  | crcinit | hdrmk | hdrpk | setsz | pldrd | frmclr | sessend => rfl
  | wirehdrConnect | wirehdrDisconnect | wirehdrData | wirehdrError => rfl

/-- LUTGEN writes every entry, so what LUT held before is gone. -/
theorem execLutgen_withLut {s : State} (hlutv : s.lutv = false) (poly : BitVec 16) :
    execLutgen poly (s.withLut m) = execLutgen poly s := by
  have hfree : ¬ s.lutv = true := by simp [hlutv]
  have hfree' : ¬ (s.withLut m).lutv = true := hfree
  rw [execLutgen, execLutgen, if_neg hfree, if_neg hfree']
  rfl

end

/-- Settles O58: LUTGEN ends in the same state, and every other command in one with the other LUT. -/
theorem tableIsUnobservableBeforeLutgen : Obligations.TableIsUnobservableBeforeLutgen := by
  intro i m s t hlutv hexec
  by_cases hi : ∃ poly, i = .lutgen poly
  · obtain ⟨poly, rfl⟩ := hi
    exact ⟨t, (execLutgen_withLut m hlutv poly).trans hexec, rfl, keepsAllBut_self _ t⟩
  · have halike := exec_withLut m hlutv fun poly he => hi ⟨poly, he⟩
    exact ⟨t.withLut m, halike.trans (congrArg (mapNext _) hexec), rfl, keeps_withLut m t⟩

end Sys2Proof.Machine
end

section
/-! PROOF. A step with a command word, and the state after RESET (spec/10_state.md R22, R52). -/

namespace Sys2Proof.Machine

/-- A block that does not wait takes up the word presented next (R22). -/
theorem fetch_command {s : State} {cw : BitVec 32} {rest : List HostEvent} (hinbox : s.inbox = .command cw :: rest)
    (hwaiting : s.waiting = false) : fetch s = .command cw (s.setInbox rest) := by
  unfold fetch
  rw [hinbox]
  simp [hwaiting]

/-- A word that decodes is performed (R91). -/
theorem present_of_decode {cw : BitVec 32} {i : Instr} (hdecode : decode cw = .ok i) (s : State) :
    present cw s = exec i s := by
  rw [present, hdecode]

/-- Settles O2. -/
theorem stepRunsTheDecodedInstruction : Obligations.StepRunsTheDecodedInstruction := by
  intro s cw rest i hinbox hwaiting hdecode
  rw [step, fetch_command hinbox hwaiting]
  exact present_of_decode hdecode _

/-- A command that only raises an error changes nothing but its ending (R200). -/
theorem raisesOnly_of_raise {i : Instr} {s : State} {c : Status} (hexec : exec i s = raise c s) :
    RaisesOnly i s c.code :=
  ⟨s.finish c 0, hexec, ⟨rfl, rfl⟩, keeps_finish s c 0⟩

/-- Settles O46: the values stand in `State.reset`, and the five commands that read LUT find LUTV 0. -/
theorem resetLeavesTheSpecsValues : Obligations.ResetLeavesTheSpecsValues := by
  refine ⟨rfl, rfl, rfl, rfl, rfl, rfl, rfl, rfl, fun _ => rfl, rfl, rfl, rfl, rfl, rfl, fun _ => rfl, rfl, rfl, rfl,
    ?_⟩
  rintro i (⟨b, rfl⟩ | ⟨b, rfl⟩ | ⟨cap, rfl⟩ | rfl | rfl) <;> exact raisesOnly_of_raise (c := .stateNoLut) rfl

end Sys2Proof.Machine
end

section
/-! PROOF. Fields of a 32-bit word: an operand placed at a bit, read back, and what a field of the word contributes to
it (spec/30_encoding.md R86, R93). -/

namespace Sys2Proof

section
variable {k n m j : Nat}

/-! ### Reading a placed field -/

/-- A field is read back where it was placed. -/
theorem extractLsb'_placed (v : BitVec k) (h : n + k ≤ 32) : (v.setWidth 32 <<< n).extractLsb' n k = v := by
  ext i hi
  have hin : n + i < 32 := by omega
  simp [hin, BitVec.getLsbD_eq_getElem hi]

/-- Bits beside a placed field are 0. -/
theorem extractLsb'_beside (v : BitVec k) (h : m + j ≤ n ∨ n + k ≤ m) :
    (v.setWidth 32 <<< n).extractLsb' m j = 0#j := by
  ext i hi
  rcases h with h | h
  · have hlow : m + i < n := by omega
    simp [hlow]
  · have hhigh : v.getLsbD (m + i - n) = false := BitVec.getLsbD_of_ge _ _ (by omega)
    simp [hhigh]

theorem extractLsb'_low_placed (v : BitVec k) (h : k ≤ 32) : (v.setWidth 32).extractLsb' 0 k = v := by
  simpa using extractLsb'_placed (n := 0) v (by omega)

theorem extractLsb'_above_low (v : BitVec k) (h : k ≤ m) : (v.setWidth 32).extractLsb' m j = 0#j := by
  simpa using extractLsb'_beside (n := 0) v (.inr (by omega))

/-- A field of a field is a field of the word. -/
theorem extractLsb'_extractLsb' (w : Word) (h : m + j ≤ k) :
    (w.extractLsb' n k).extractLsb' m j = w.extractLsb' (n + m) j := by
  ext i hi
  have hin : m + i < k := by omega
  simp [hin, Nat.add_assoc]

/-! ### Placing a field that was read -/

/-- A field put back at its place is what the field's bits show of the word. -/
theorem placed_extractLsb' (w : Word) (n k : Nat) :
    (w.extractLsb' n k).setWidth 32 <<< n = w &&& (BitVec.allOnes k).setWidth 32 <<< n := by
  apply BitVec.eq_of_getLsbD_eq
  intro i hi
  by_cases hlow : i < n
  · simp [hlow]
  · have hplace : n + (i - n) = i := by omega
    simp [hlow, hi, hplace, Bool.and_comm]

theorem low_extractLsb' (w : Word) (k : Nat) :
    (w.extractLsb' 0 k).setWidth 32 = w &&& (BitVec.allOnes k).setWidth 32 := by
  simpa using placed_extractLsb' w 0 k

/-- A field that fits into a byte keeps its place when the byte is widened. -/
theorem setWidth_placed (v : BitVec k) (h : n + k ≤ 8) :
    (v.setWidth 8 <<< n).setWidth 32 = v.setWidth 32 <<< n := by
  apply BitVec.eq_of_getLsbD_eq
  intro i hi
  by_cases hin : i < 8
  · simp [hi, hin]
  · have hout : v.getLsbD (i - n) = false := BitVec.getLsbD_of_ge _ _ (by omega)
    simp [hin, hout]

/-- A field of more than 8 bits, as its bits above the low byte and its low byte. -/
theorem setWidth_split (v : BitVec (8 + k)) :
    (v.extractLsb' 8 k).setWidth 32 <<< 8 ||| (v.extractLsb' 0 8).setWidth 32 = v.setWidth 32 := by
  apply BitVec.eq_of_getLsbD_eq
  intro i hi
  by_cases hlow : i < 8
  · simp [hi, hlow]
  · by_cases hin : i - 8 < k
    · have hplace : 8 + (i - 8) = i := by omega
      simp [hi, hlow, hin, hplace]
    · have hout : v.getLsbD i = false := BitVec.getLsbD_of_ge _ _ (by omega)
      simp [hlow, hin, hout]

end

end Sys2Proof
end

section
/-! PROOF. The decoder and the encoder (spec/30_encoding.md R85 to R103): the command decoder by its 21 rows, a header
by its fields and by its packed bytes, and that decoding and encoding undo each other. -/

namespace Sys2Proof

open Sys2Proof.Machine Sys2Proof.Laws

/-! ### The rows of the command decoder -/

/-- A row's mask covers the command code, so a word that matches the row has its code (R87, R103). -/
theorem row_mask_covers_code : ∀ r ∈ commandRows, codeOf r.mask = 0xFF#8 := by decide

theorem codeOf_eq_of_matches {r : CommandRow} (hr : r ∈ commandRows) {cw : Word} (h : cw &&& r.mask = r.pattern) :
    codeOf r.pattern = codeOf cw := by
  have hmask : codeOf (cw &&& r.mask) = codeOf cw &&& codeOf r.mask := BitVec.extractLsb'_and
  rw [← h, hmask, row_mask_covers_code r hr]
  exact BitVec.and_allOnes

theorem codes_of_rows : commandRows.map (fun r => codeOf r.pattern) = assignedCodes := by decide

/-- The code selects one row. -/
theorem row_of_code {r : CommandRow} (hr : r ∈ commandRows) {cw : Word} (hcode : codeOf r.pattern = codeOf cw) :
    commandRows.find? (fun q => codeOf q.pattern == codeOf cw) = some r := by
  have hnodup : (commandRows.map fun q => codeOf q.pattern).Nodup := by decide
  cases hfind : commandRows.find? (fun q => codeOf q.pattern == codeOf cw) with
  | none => exact absurd (by simpa using hcode) (List.find?_eq_none.mp hfind r hr)
  | some q =>
    have hq : codeOf q.pattern = codeOf cw := by simpa using List.find?_some hfind
    rw [List.inj_on_of_nodup_map hnodup (List.mem_of_find?_eq_some hfind) hr (hq.trans hcode.symm)]

/-- A word with a row's code is read by that row, or refused for its reserved bits (R91). -/
theorem decodeCommand_of_code {r : CommandRow} (hr : r ∈ commandRows) {cw : Word}
    (hcode : codeOf r.pattern = codeOf cw) :
    decodeCommand cw = if cw &&& r.mask = r.pattern then .ok (r.read cw) else .error .reservedBits := by
  rw [decodeCommand, row_of_code hr hcode]

/-- A word with no row's code is illegal (R90). -/
theorem decodeCommand_of_unassigned {cw : Word} (h : codeOf cw ∉ assignedCodes) :
    decodeCommand cw = .error .illegalCmd := by
  have hfind : commandRows.find? (fun q => codeOf q.pattern == codeOf cw) = none := by
    refine List.find?_eq_none.mpr fun r hr hcode => h ?_
    rw [← beq_iff_eq.mp hcode, ← codes_of_rows]
    exact List.mem_map_of_mem hr
  rw [decodeCommand, hfind]

/-- An assigned code is a row's. -/
theorem row_of_assigned {c : Byte} (h : c ∈ assignedCodes) : ∃ r ∈ commandRows, codeOf r.pattern = c := by
  rw [← codes_of_rows] at h
  exact List.mem_map.mp h

/-- R103: the words read as a command are those that match a row. -/
theorem decodeCommand_ok_iff {cw : Word} {i : Instr} :
    decodeCommand cw = .ok i ↔ ∃ r ∈ commandRows, cw &&& r.mask = r.pattern ∧ r.read cw = i := by
  constructor
  · intro h
    by_cases hassigned : codeOf cw ∈ assignedCodes
    · obtain ⟨r, hr, hcode⟩ := row_of_assigned hassigned
      rw [decodeCommand_of_code hr hcode] at h
      split at h
      · next hmatch => exact ⟨r, hr, hmatch, Except.ok.inj h⟩
      · cases h
    · rw [decodeCommand_of_unassigned hassigned] at h
      cases h
  · rintro ⟨r, hr, hmatch, rfl⟩
    rw [decodeCommand_of_code hr (codeOf_eq_of_matches hr hmatch), if_pos hmatch]

theorem decode_of_unassigned {cw : Word} (h : codeOf cw ∉ assignedCodes) : decode cw = .ok (decodeHeader cw) := by
  rw [decode, decodeCommand_of_unassigned h]

/-- A word with a row's code that does not match the row has a reserved bit set (R87). -/
theorem decode_of_mismatch {r : CommandRow} (hr : r ∈ commandRows) {cw : Word} (hcode : codeOf r.pattern = codeOf cw)
    (h : cw &&& r.mask ≠ r.pattern) : decode cw = .error .reservedBits := by
  rw [decode, decodeCommand_of_code hr hcode, if_neg h]

/-- A word that decodes matches a row, or its code is unassigned. -/
theorem decode_ok_cases {cw : Word} {i : Instr} (h : decode cw = .ok i) :
    decodeCommand cw = .ok i ∨ (codeOf cw ∉ assignedCodes ∧ i = decodeHeader cw) := by
  by_cases hassigned : codeOf cw ∈ assignedCodes
  · obtain ⟨r, hr, hcode⟩ := row_of_assigned hassigned
    by_cases hmatch : cw &&& r.mask = r.pattern
    · rw [decode, decodeCommand_of_code hr hcode, if_pos hmatch] at h
      exact .inl (decodeCommand_ok_iff.mpr ⟨r, hr, hmatch, Except.ok.inj h⟩)
    · rw [decode_of_mismatch hr hcode hmatch] at h
      cases h
  · rw [decode_of_unassigned hassigned] at h
    exact .inr ⟨hassigned, (Except.ok.inj h).symm⟩

/-! ### A command read from a word encodes to it -/

/-- The fields of a row are the bits that its mask leaves free, so a row's reading, encoded, is the word with the row's
fixed bits in their place. -/
theorem encode_read_of_row (w : Word) : ∀ r ∈ commandRows, encode (r.read w) = r.pattern ||| (w &&& ~~~r.mask) := by
  simp [commandRows, encode, imm8, imm16, idx8, placed_extractLsb', low_extractLsb', BitVec.or_assoc,
    ← BitVec.and_or_distrib_left]

theorem wellFormed_read_of_row (w : Word) : ∀ r ∈ commandRows, (r.read w).wellFormed = true := by
  simp [commandRows, Instr.wellFormed]

theorem encode_of_decodeCommand {cw : Word} {i : Instr} (h : decodeCommand cw = .ok i) : encode i = cw := by
  obtain ⟨r, hr, hmatch, rfl⟩ := decodeCommand_ok_iff.mp h
  calc encode (r.read cw) = (cw &&& r.mask) ||| (cw &&& ~~~r.mask) := by rw [encode_read_of_row cw r hr, hmatch]
    _ = cw &&& (r.mask ||| ~~~r.mask) := BitVec.and_or_distrib_left.symm
    _ = cw := by rw [BitVec.or_not_self, BitVec.and_allOnes]

theorem wellFormed_of_decodeCommand {cw : Word} {i : Instr} (h : decodeCommand cw = .ok i) : i.wellFormed = true := by
  obtain ⟨r, hr, -, rfl⟩ := decodeCommand_ok_iff.mp h
  exact wellFormed_read_of_row cw r hr

/-! ### The encoding of a command is read as that command -/

/-- An instruction whose encoding shows its row's fixed bits, whose row stands at place `k` of the decoder's table, and
whose operands that row reads back, is what its encoding decodes to. -/
theorem decode_encode_of_row {i : Instr} (hmatch : EncodingMatchesRow.Statement i) (k : Nat) {read : Word → Instr}
    (hrow : commandRows[k]? = some ⟨(rowOf i).1, (rowOf i).2, read⟩) (hread : read (encode i) = i) :
    decode (encode i) = .ok i := by
  have hcommand : decodeCommand (encode i) = .ok i :=
    decodeCommand_ok_iff.mpr ⟨_, List.mem_of_getElem? hrow, hmatch, hread⟩
  rw [decode, hcommand]

/-- The only operand of an encoding, read back. -/
theorem extractLsb'_operand {k : Nat} {p : Word} (v : BitVec k) (hp : p.extractLsb' 0 k = 0#k)
    (hk : k ≤ 32 := by decide) : (p ||| v.setWidth 32).extractLsb' 0 k = v := by
  rw [BitVec.extractLsb'_or, hp, extractLsb'_low_placed v hk, BitVec.zero_or]

theorem hdrmk_read_encode (op len : BitVec 2) (ack : BitVec 1) (pn16 : BitVec 16) :
    let w := encode (.hdrmk op len ack pn16)
    Instr.hdrmk (w.extractLsb' 19 2) (w.extractLsb' 17 2) (w.extractLsb' 16 1) (imm16 w) =
      .hdrmk op len ack pn16 := by
  simp [encode, imm16, BitVec.extractLsb'_or, extractLsb'_placed, extractLsb'_beside, extractLsb'_low_placed,
    extractLsb'_above_low]

theorem pldw_read_encode (idx b : BitVec 8) :
    Instr.pldw (idx8 (encode (.pldw idx b))) (imm8 (encode (.pldw idx b))) = .pldw idx b := by
  simp [encode, idx8, imm8, BitVec.extractLsb'_or, extractLsb'_placed, extractLsb'_beside, extractLsb'_low_placed,
    extractLsb'_above_low]

/-! ### Headers as words -/

section
variable (op len : BitVec 2) (ack : BitVec 1) (pn : BitVec 11) (ck : BitVec 16)

/-- The header row of an opcode (R93, R103). -/
def headerInstr : Instr :=
  match op.toNat with
  | 0 => .wirehdrConnect len ack pn ck
  | 1 => .wirehdrDisconnect len ack pn ck
  | 2 => .wirehdrData len ack pn ck
  | _ => .wirehdrError len ack pn ck

theorem decodeHeader_eq (w : Word) : decodeHeader w =
    headerInstr (w.extractLsb' 30 2) (w.extractLsb' 28 2) (w.extractLsb' 27 1) (w.extractLsb' 16 11)
      (w.extractLsb' 0 16) := rfl

theorem opcode_cases : ∀ op : BitVec 2, op = 0 ∨ op = 1 ∨ op = 2 ∨ op = 3 := by decide

theorem encode_headerInstr : encode (headerInstr op len ack pn ck) = headerWord op len ack pn ck := by
  rcases opcode_cases op with rfl | rfl | rfl | rfl <;> rfl

/-- The fields of a header's 32-bit value are the header's (R93). -/
theorem decodeHeader_headerWord : decodeHeader (headerWord op len ack pn ck) = headerInstr op len ack pn ck := by
  simp [decodeHeader_eq, headerWord, BitVec.extractLsb'_or, extractLsb'_placed, extractLsb'_beside,
    extractLsb'_low_placed, extractLsb'_above_low]

/-- The fields of R93 cover the word. -/
theorem encode_decodeHeader (w : Word) : encode (decodeHeader w) = w := by
  rw [decodeHeader_eq, encode_headerInstr, headerWord]
  simp only [placed_extractLsb', low_extractLsb', ← BitVec.and_or_distrib_left]
  exact BitVec.and_allOnes

/-- A header's 32-bit value is its four packed bytes, most significant first (R93, R132). -/
theorem headerWord_eq_packed : headerWord op len ack pn ck = beU32OfList (hdrPack ⟨op, len, ack, pn, ck⟩) := by
  have hpn := setWidth_split (k := 3) pn
  have hck := setWidth_split (k := 8) ck
  rw [headerWord, ← hpn, ← hck]
  simp [hdrPack, beU32OfList, beU32, BitVec.setWidth_or, BitVec.shiftLeft_or_distrib, setWidth_placed,
    ← BitVec.shiftLeft_add, BitVec.or_assoc]

/-- The code of a header's word is the header's first byte on the wire (R91, R93). -/
theorem codeOf_headerWord : codeOf (headerWord op len ack pn ck) =
    (op.setWidth 8 <<< 6) ||| (len.setWidth 8 <<< 4) ||| (ack.setWidth 8 <<< 3) |||
      (pn.extractLsb' 8 3).setWidth 8 := by
  rw [headerWord_eq_packed]
  simp only [codeOf, hdrPack, beU32OfList, beU32, BitVec.extractLsb'_or, extractLsb'_placed, extractLsb'_beside,
    extractLsb'_above_low, BitVec.or_zero, Nat.reduceAdd, Nat.le_refl, Nat.reduceLeDiff, or_true]

theorem codeOf_connect : codeOf (headerWord 0 len ack pn ck) = connectByte0 len ack pn := by
  rw [codeOf_headerWord]
  simp [connectByte0]

/-- An assigned code has its two high bits clear, so only a CONNECT header can have one (R91). -/
theorem opcode_of_assigned (h : codeOf (headerWord op len ack pn ck) ∈ assignedCodes) : op = 0 := by
  have hassigned : ∀ c ∈ assignedCodes, c.extractLsb' 6 2 = 0 := by decide
  have hop : (headerWord op len ack pn ck).extractLsb' 30 2 = op := by
    simp [headerWord, BitVec.extractLsb'_or, extractLsb'_placed, extractLsb'_beside, extractLsb'_above_low]
  rw [← hop, ← extractLsb'_extractLsb' (n := 24) (k := 8) (m := 6) _ (by decide)]
  exact hassigned _ h

/-- The well-formed headers are those whose words no command row claims. -/
theorem wellFormed_headerInstr : (headerInstr op len ack pn ck).wellFormed = true ↔
    codeOf (headerWord op len ack pn ck) ∉ assignedCodes := by
  by_cases hop : op = 0
  · subst hop
    rw [codeOf_connect]
    simp [headerInstr, Instr.wellFormed]
  · have hcode : codeOf (headerWord op len ack pn ck) ∉ assignedCodes :=
      fun h => hop (opcode_of_assigned op len ack pn ck h)
    rcases (opcode_cases op).resolve_left hop with rfl | rfl | rfl <;> exact iff_of_true rfl hcode

/-- A well-formed header's word is read as that header. -/
theorem decode_encode_headerInstr (h : (headerInstr op len ack pn ck).wellFormed = true) :
    decode (encode (headerInstr op len ack pn ck)) = .ok (headerInstr op len ack pn ck) := by
  rw [wellFormed_headerInstr] at h
  rw [encode_headerInstr, decode_of_unassigned h, decodeHeader_headerWord]

end

theorem wellFormed_decodeHeader {w : Word} (h : codeOf w ∉ assignedCodes) : (decodeHeader w).wellFormed = true := by
  rw [← encode_decodeHeader w, decodeHeader_eq w, encode_headerInstr] at h
  exact (wellFormed_headerInstr _ _ _ _ _).mpr h

/-! ### The statements about the encoding -/

/-- Settles O6, constructor by constructor: each command by its row, each header by its fields. -/
theorem decodeOfEncode : Obligations.DecodeOfEncode := by
  intro i hwf
  cases i with
  | lutgen poly =>
    exact decode_encode_of_row (EncodingMatchesRow.lutgen poly) 0 rfl
      (congrArg Instr.lutgen (extractLsb'_operand poly rfl))
  | crcinit => exact decode_encode_of_row EncodingMatchesRow.crcinit 1 rfl rfl
  | crcb b =>
    exact decode_encode_of_row (EncodingMatchesRow.crcb b) 2 rfl
      (congrArg Instr.crcb (extractLsb'_operand b rfl))
  | lutrd idx =>
    exact decode_encode_of_row (EncodingMatchesRow.lutrd idx) 3 rfl
      (congrArg Instr.lutrd (extractLsb'_operand idx rfl))
  | hdrmk op len ack pn16 =>
    exact decode_encode_of_row (EncodingMatchesRow.hdrmk op len ack pn16) 4 rfl
      (hdrmk_read_encode op len ack pn16)
  | hdrchk => exact decode_encode_of_row EncodingMatchesRow.hdrchk 5 rfl rfl
  | hdrpk => exact decode_encode_of_row EncodingMatchesRow.hdrpk 6 rfl rfl
  | setsz cls =>
    exact decode_encode_of_row (EncodingMatchesRow.setsz cls) 7 rfl
      (congrArg Instr.setsz (extractLsb'_operand cls rfl))
  | pldclr => exact decode_encode_of_row EncodingMatchesRow.pldclr 8 rfl rfl
  | pldw idx b => exact decode_encode_of_row (EncodingMatchesRow.pldw idx b) 9 rfl (pldw_read_encode idx b)
  | pldrd idx =>
    exact decode_encode_of_row (EncodingMatchesRow.pldrd idx) 10 rfl
      (congrArg Instr.pldrd (extractLsb'_operand idx rfl))
  | ser cap =>
    exact decode_encode_of_row (EncodingMatchesRow.ser cap) 11 rfl
      (congrArg Instr.ser (extractLsb'_operand cap rfl))
  | des => exact decode_encode_of_row EncodingMatchesRow.des 12 rfl rfl
  | frmclr => exact decode_encode_of_row EncodingMatchesRow.frmclr 13 rfl rfl
  | frmb b =>
    exact decode_encode_of_row (EncodingMatchesRow.frmb b) 14 rfl
      (congrArg Instr.frmb (extractLsb'_operand b rfl))
  | frmrd idx =>
    exact decode_encode_of_row (EncodingMatchesRow.frmrd idx) 15 rfl
      (congrArg Instr.frmrd (extractLsb'_operand idx rfl))
  | tx => exact decode_encode_of_row EncodingMatchesRow.tx 16 rfl rfl
  | rx => exact decode_encode_of_row EncodingMatchesRow.rx 17 rfl rfl
  | hsk => exact decode_encode_of_row EncodingMatchesRow.hsk 18 rfl rfl
  | sessend => exact decode_encode_of_row EncodingMatchesRow.sessend 19 rfl rfl
  | rd r =>
    exact decode_encode_of_row (EncodingMatchesRow.rd r) 20 rfl
      (congrArg Instr.rd (extractLsb'_operand r rfl))
  | wirehdrConnect len ack pn ck => exact decode_encode_headerInstr 0 len ack pn ck hwf
  | wirehdrDisconnect len ack pn ck => exact decode_encode_headerInstr 1 len ack pn ck hwf
  | wirehdrData len ack pn ck => exact decode_encode_headerInstr 2 len ack pn ck hwf
  | wirehdrError len ack pn ck => exact decode_encode_headerInstr 3 len ack pn ck hwf

/-- Settles O7. -/
theorem encodeOfDecode : Obligations.EncodeOfDecode := by
  intro cw i h
  rcases decode_ok_cases h with hcommand | ⟨hunassigned, rfl⟩
  · exact ⟨encode_of_decodeCommand hcommand, wellFormed_of_decodeCommand hcommand⟩
  · exact ⟨encode_decodeHeader cw, wellFormed_decodeHeader hunassigned⟩

/-- Settles O5. -/
theorem commandDecoderFollowsTheTable : Obligations.CommandDecoderFollowsTheTable := by
  refine ⟨fun cw => ?_, fun _ _ => encode_of_decodeCommand, encode_decodeHeader⟩
  have hrows : (∃ i, decodeCommand cw = .ok i) ↔
      ∃ p ∈ commandRows.map (fun r => (r.pattern, r.mask)), cw &&& p.2 = p.1 := by
    simp [decodeCommand_ok_iff]
  exact hrows

/-- Settles O8. -/
theorem headerRowsArePackedHeaders : Obligations.HeaderRowsArePackedHeaders := fun len ack pn ck =>
  ⟨headerWord_eq_packed 0 len ack pn ck, headerWord_eq_packed 1 len ack pn ck, headerWord_eq_packed 2 len ack pn ck,
    headerWord_eq_packed 3 len ack pn ck⟩

/-- Settles O1: closed words, evaluated by the decoder. -/
theorem listedWordsDecode : Obligations.ListedWordsDecode := by
  refine ⟨?_, ?_, ?_, ?_, ?_, ?_, ?_⟩ <;> decide

end Sys2Proof
end

section
/-! PROOF. Words that are not performed, at the command port (spec/30_encoding.md R87, R90, R91). -/

namespace Sys2Proof.Machine

theorem keeps_setInbox (s : State) (rest : List HostEvent) : KeepsAllBut [.inbox] s (s.setInbox rest) := by
  intro x hx
  cases x <;> simp [Unchanged] at hx ⊢

/-- A presented word that only raises an error leaves its ending, and is taken off the script (R22, R200). -/
theorem step_raises {s : State} {cw : BitVec 32} {rest : List HostEvent} {c : Status}
    (hinbox : s.inbox = .command cw :: rest) (hwaiting : s.waiting = false)
    (hpresent : present cw (s.setInbox rest) = raise c (s.setInbox rest)) :
    ∃ t, step s = .next t ∧ Ended t c.code 0 ∧ t.inbox = rest ∧ KeepsAllBut [.lastst, .response, .inbox] s t := by
  refine ⟨(s.setInbox rest).finish c 0, ?_, ⟨rfl, rfl⟩, rfl, ?_⟩
  · rw [step, fetch_command hinbox hwaiting]
    exact hpresent
  · exact ((keeps_setInbox s rest).then (keeps_finish _ c 0)).mono (by decide)

/-- A header row at the command port is an illegal word (R90). -/
theorem exec_headerInstr (op len : BitVec 2) (ack : BitVec 1) (pn : BitVec 11) (ck : BitVec 16) (s : State) :
    exec (headerInstr op len ack pn ck) s = raise .argIllegalCmd s := by
  rcases opcode_cases op with rfl | rfl | rfl | rfl <;> rfl

theorem present_of_unassigned {cw : Word} (h : codeOf cw ∉ assignedCodes) (s : State) :
    present cw s = raise .argIllegalCmd s := by
  rw [present_of_decode (decode_of_unassigned h), decodeHeader_eq, exec_headerInstr]

theorem present_of_mismatch {r : CommandRow} (hr : r ∈ commandRows) {cw : Word}
    (hcode : codeOf r.pattern = codeOf cw) (h : cw &&& r.mask ≠ r.pattern) (s : State) :
    present cw s = raise .argReservedBits s := by
  rw [present, decode_of_mismatch hr hcode h]
  rfl

/-! ### The code and the reserved bits, as the statements write them -/

theorem codeOf_setWidth (cw : Word) : (codeOf cw).setWidth 32 = cw >>> 24 := by
  ext i hi
  by_cases hin : i < 8
  · simp [codeOf, hin]
  · have hout : cw.getLsbD (24 + i) = false := BitVec.getLsbD_of_ge _ _ (by omega)
    simp [codeOf, hin, hout]

theorem codeOf_eq_of_shift_eq {a b : Word} (h : a >>> 24 = b >>> 24) : codeOf a = codeOf b := by
  rw [← codeOf_setWidth, ← codeOf_setWidth] at h
  simpa using congrArg (BitVec.setWidth 8) h

/-- A row's pattern has no reserved bit, so a word that matches the row has none (R87). -/
theorem reserved_clear_of_matches {r : CommandRow} (hr : r ∈ commandRows) {cw : Word}
    (h : cw &&& r.mask = r.pattern) : cw &&& (r.mask &&& 0xFFFFFF#32) = 0#32 := by
  have hpattern : ∀ q ∈ commandRows, q.pattern &&& 0xFFFFFF#32 = 0#32 := by decide
  rw [← BitVec.and_assoc, h, hpattern r hr]

/-! ### The statements about words at the command port -/

/-- Settles O3. -/
theorem unassignedCodesAreIllegal : Obligations.UnassignedCodesAreIllegal := by
  intro s cw rest hinbox hwaiting hcode
  refine step_raises (c := .argIllegalCmd) hinbox hwaiting (present_of_unassigned (fun h => hcode ?_) _)
  rw [← codeOf_setWidth]
  exact List.mem_map_of_mem (f := fun c => c.setWidth 32) h

/-- Settles O4: the listed pairs are, row by row, the code and the bits below it that the row's mask covers. -/
theorem reservedBitsAreRefused : Obligations.ReservedBitsAreRefused := by
  rintro s cw rest hinbox hwaiting ⟨p, hp, hcode, hreserved⟩
  have hrow : p ∈ commandRows.map fun r : CommandRow => (r.pattern >>> 24, r.mask &&& 0xFFFFFF#32) := hp
  obtain ⟨r, hr, rfl⟩ := List.mem_map.mp hrow
  exact step_raises (c := .argReservedBits) hinbox hwaiting
    (present_of_mismatch hr (codeOf_eq_of_shift_eq hcode.symm) (fun h => hreserved (reserved_clear_of_matches hr h)) _)

/-- Settles O45. -/
theorem headerWordsAreIllegalCommands : Obligations.HeaderWordsAreIllegalCommands := by
  intro len ack pn ck s
  have hraises (op : BitVec 2) : RaisesOnly (headerInstr op len ack pn ck) s 0x30 :=
    raisesOnly_of_raise (exec_headerInstr op len ack pn ck s)
  exact ⟨hraises 0, hraises 1, hraises 2, hraises 3⟩

end Sys2Proof.Machine
end

section
/-! PROOF. What the table of a polynomial and the CRC of a sequence are, as R111's iterations give them
(spec/40_crc.md R112, R119, R123). -/

namespace Sys2Proof.Machine

section
variable (poly : BitVec 16)

/-! ### The entries of the table (R112) -/

theorem lutShifts_zero (k : Nat) : lutShifts poly k 0 = 0 := by
  rw [lutShifts_eq_shiftLeft poly k 0 (by simp)]
  exact BitVec.zero_shiftLeft k

theorem lutEntry_zero : lutEntry poly 0 = 0 := lutShifts_zero poly 8

/-- Seven iterations bring the one bit of entry 1 to bit 15, and the eighth exchanges it for the polynomial. -/
theorem lutEntry_one : lutEntry poly 1 = poly := by
  have hseven : lutShifts poly 7 0x0100 = 0x8000 := lutShifts_eq_shiftLeft poly 7 _ (by decide)
  calc lutShifts poly (7 + 1) 0x0100
    _ = lutShifts poly 1 0x8000 := by rw [lutShifts_add, hseven]
    _ = 0 ^^^ poly := rfl
    _ = poly := BitVec.zero_xor

theorem lutEntry_xor (a b : BitVec 8) : lutEntry poly (a ^^^ b) = lutEntry poly a ^^^ lutEntry poly b := by
  simp only [lutEntry, BitVec.setWidth_xor, BitVec.shiftLeft_xor_distrib, lutShifts_xor]

/-! ### Sequences with CRC 0 (R119, R123) -/

/-- The self-verification law: the CRC and the two bytes behind the sequence differ in nothing, and 0 stays 0. -/
theorem crc16_append_be16 (d : List (BitVec 8)) :
    crc16 (lutTable poly) (d ++ be16 (crc16 (lutTable poly) d)) = 0 := by
  rw [be16, crc16_append_two, beU16_of_bytes, BitVec.xor_self]
  exact lutShifts_zero poly 16

theorem crcStep_zero : crcStep (lutTable poly) 0 0 = 0 := by
  rw [crcStep_lutTable]
  exact lutShifts_zero poly 8

theorem crc16_zeros (k : Nat) : crc16 (lutTable poly) (List.replicate k 0) = 0 := by
  induction k with
  | zero => rfl
  | succ k ih => rw [List.replicate_succ', crc16_append, ih]; exact crcStep_zero poly

end

/-! ### The statements about the arithmetic -/

/-- Settles O9. -/
theorem tableOfAPolynomial : Obligations.TableOfAPolynomial := fun poly =>
  ⟨read_lutTable poly, lutEntry_zero poly, lutEntry_one poly, lutEntry_xor poly⟩

/-- Settles O10. The byte 1 with its own CRC behind it has residual 0, and so have three zero bytes. -/
theorem crcOfSequenceWithItsCrcIsZero : Obligations.CrcOfSequenceWithItsCrcIsZero := by
  intro poly
  have hdiffer : [1] ++ be16 (crc16 (lutTable poly) [1]) ≠ List.replicate 3 0 := fun h =>
    absurd (List.cons.inj h).1 (by decide)
  exact ⟨crc16_append_be16 poly, _, _, hdiffer, rfl, crc16_append_be16 poly [1], crc16_zeros poly 3⟩

/-- Settles O11: the fold comes to the bytes behind the zeros as it began, with 0. -/
theorem leadingZerosAreNotSeen : Obligations.LeadingZerosAreNotSeen := by
  intro poly k d
  refine ⟨?_, crc16_zeros poly k⟩
  rw [crc16_append, crc16_zeros, crc16]

end Sys2Proof.Machine
end

section
/-! PROOF. The commands of the CRC engine, each with the state it gives (spec/40_crc.md R115 to R118), and the running
fold of R121. -/

namespace Sys2Proof.Machine

/-! ### CRCACC written and answered: the ending that CRCINIT and CRCB share -/

/-- CRCACC holds `c` and the response carries it. -/
def State.accumulate (s : State) (c : BitVec 16) : State := (s.setCrcacc c).finish .ok (c.setWidth 32)

section
variable (s : State)

@[simp] theorem State.accumulate_lut (c : BitVec 16) : (s.accumulate c).lut = s.lut := rfl
@[simp] theorem State.accumulate_lutv (c : BitVec 16) : (s.accumulate c).lutv = s.lutv := rfl
@[simp] theorem State.accumulate_crcacc (c : BitVec 16) : (s.accumulate c).crcacc = c := rfl
@[simp] theorem State.accumulate_waiting (c : BitVec 16) : (s.accumulate c).waiting = s.waiting := rfl
@[simp] theorem State.accumulate_accumulate (c d : BitVec 16) : (s.accumulate c).accumulate d = s.accumulate d := rfl

theorem ended_finish_ok (v : BitVec 32) : Ended (s.finish .ok v) 0x00 v := ⟨rfl, rfl⟩

theorem ended_accumulate (c : BitVec 16) : Ended (s.accumulate c) 0x00 (c.setWidth 32) := ended_finish_ok _ _

theorem keeps_accumulate (c : BitVec 16) : KeepsAllBut [.crcacc, .lastst, .response] s (s.accumulate c) :=
  (keeps_setCrcacc s c).then (keeps_finish _ _ _)

/-! ### The state that each command gives -/

theorem exec_crcinit : exec .crcinit s = .next (s.accumulate 0) := rfl

variable {s}

theorem exec_crcb_of_table (htable : s.lutv = true) (b : BitVec 8) :
    exec (.crcb b) s = .next (s.accumulate (crcStep s.lut s.crcacc b)) :=
  requireTable_of_table _ htable

theorem exec_crcb_of_no_table (htable : s.lutv = false) (b : BitVec 8) : exec (.crcb b) s = raise .stateNoLut s :=
  requireTable_of_no_table _ htable

theorem exec_lutrd_of_table (htable : s.lutv = true) (i : BitVec 8) :
    exec (.lutrd i) s = .next (s.finish .ok ((Memory.read s.lut i.toNat).setWidth 32)) :=
  requireTable_of_table _ htable

theorem exec_lutrd_of_no_table (htable : s.lutv = false) (i : BitVec 8) : exec (.lutrd i) s = raise .stateNoLut s :=
  requireTable_of_no_table _ htable

theorem exec_lutgen_of_table (htable : s.lutv = true) (poly : BitVec 16) :
    exec (.lutgen poly) s = raise .stateLutLocked s :=
  if_pos htable

theorem exec_lutgen_of_no_table (htable : s.lutv = false) (poly : BitVec 16) :
    exec (.lutgen poly) s = .next ((s.setTable (lutTable poly) poly).finish .ok 0) :=
  if_neg (Bool.eq_false_iff.mp htable)

end

/-! ### The fold step and the running fold -/

/-- The fold step with its index as a half, as R113 writes it: the shifted accumulator has no bit above its high byte. -/
theorem crcStep_eq (lut : Memory 16) (c : BitVec 16) (b : BitVec 8) :
    crcStep lut c b = (c <<< 8) ^^^ Memory.read lut ((c >>> 8) ^^^ b.setWidth 16).toNat := by
  have hhigh : (c.extractLsb' 8 8).toNat = (c >>> 8).toNat := by
    rw [BitVec.extractLsb'_toNat, BitVec.toNat_ushiftRight, Nat.shiftRight_eq_div_pow]
    omega
  have hbyte : (b.setWidth 16).toNat = b.toNat := BitVec.toNat_setWidth_of_le (by decide)
  rw [crcStep, BitVec.toNat_xor, BitVec.toNat_xor, hhigh, hbyte]

/-- A command that ends is followed by the rest of its sequence. -/
theorem execAll_cons_of_next {i : Instr} {s t : State} (hexec : exec i s = .next t) (hwaiting : t.waiting = false)
    (is : List Instr) : execAll (i :: is) s = execAll is t := by
  simp [execAll, hexec, hwaiting]

/-- One CRCB for each byte: the bytes are folded into what CRCACC held. -/
theorem execAll_crcb {s : State} (htable : s.lutv = true) (hwaiting : s.waiting = false) (ds : List (BitVec 8)) :
    ∀ c : BitVec 16, execAll (ds.map .crcb) (s.accumulate c) = .next (s.accumulate (ds.foldl (crcStep s.lut) c)) := by
  induction ds with
  | nil => exact fun _ => rfl
  | cons d ds ih =>
    intro c
    have hexec : exec (.crcb d) (s.accumulate c) = .next (s.accumulate (crcStep s.lut c d)) := by
      simp [exec_crcb_of_table, htable]
    rw [List.map_cons, execAll_cons_of_next hexec ((s.accumulate_waiting _).trans hwaiting), ih, List.foldl_cons]

/-- The pseudo-command `crc16` (R102). -/
theorem execAll_pseudoCrc16 {s : State} (htable : s.lutv = true) (hwaiting : s.waiting = false)
    (ds : List (BitVec 8)) : execAll (pseudoCrc16 ds) s = .next (s.accumulate (crc16 s.lut ds)) := by
  rw [pseudoCrc16, execAll_cons_of_next (exec_crcinit s) ((s.accumulate_waiting 0).trans hwaiting)]
  exact execAll_crcb htable hwaiting ds 0

/-! ### The statements about the commands -/

/-- Settles O16: the entries of the table written are R111's, and the frame is that of the two updates. -/
theorem lutgenFillsTheTableOnce : Obligations.LutgenFillsTheTableOnce := by
  refine ⟨fun poly => decodeOfEncode (.lutgen poly) rfl, fun poly s hlocked => ?_, fun poly s hfree => ?_⟩
  · exact raisesOnly_of_raise (exec_lutgen_of_table hlocked poly)
  · exact ⟨_, exec_lutgen_of_no_table hfree poly, read_lutTable poly, rfl, rfl, ended_finish_ok _ _,
      (keeps_setTable s _ _).then (keeps_finish _ _ _)⟩

/-- Settles O18, its index as a half by `crcStep_eq`. -/
theorem crcbFoldsOneByte : Obligations.CrcbFoldsOneByte := by
  refine ⟨fun b => decodeOfEncode (.crcb b) rfl, fun b s htable => ?_, fun b s htable => ?_⟩
  · exact raisesOnly_of_raise (exec_crcb_of_no_table htable b)
  · rw [← crcStep_eq]
    exact ⟨_, exec_crcb_of_table htable b, rfl, ended_accumulate _ _, keeps_accumulate _ _⟩

/-- Settles O20: the whole sequence leaves what one CRCB would that had folded all the bytes. -/
theorem runningFoldIsTheCrc : Obligations.RunningFoldIsTheCrc := fun ds _ htable hwaiting =>
  ⟨_, execAll_pseudoCrc16 htable hwaiting ds, rfl, ended_accumulate _ _, keeps_accumulate _ _⟩

/-- Settles O17. -/
theorem crcinitClearsTheAccumulator : Obligations.CrcinitClearsTheAccumulator :=
  ⟨decodeOfEncode .crcinit rfl, fun s => ⟨_, exec_crcinit s, rfl, ended_accumulate s 0, keeps_accumulate s 0⟩⟩

/-- Settles O19. -/
theorem lutrdReadsOneEntry : Obligations.LutrdReadsOneEntry := by
  refine ⟨fun i => decodeOfEncode (.lutrd i) rfl, fun i s htable => ?_, fun i s htable => ?_⟩
  · exact raisesOnly_of_raise (exec_lutrd_of_no_table htable i)
  · exact ⟨_, exec_lutrd_of_table htable i, ended_finish_ok _ _, keeps_finish _ _ _⟩

end Sys2Proof.Machine
end

section
/-! PROOF. The packet header as one 32-bit value: `hdr_word` and the four wire bytes are its parts, so packing and
unpacking are the reading and the placing of its fields (spec/41_header.md R131 to R134). -/

namespace Sys2Proof.Machine

/-! ### Fields of any width -/

/-- A field that fits into a narrower word keeps its place when that word is widened. -/
theorem setWidth_placed_within {k m n : Nat} (v : BitVec k) (h : n + k ≤ m) :
    (v.setWidth m <<< n).setWidth 32 = v.setWidth 32 <<< n := by
  apply BitVec.eq_of_getLsbD_eq
  intro i hi
  by_cases hin : i < m
  · simp [hi, hin]
  · have hout : v.getLsbD (i - n) = false := BitVec.getLsbD_of_ge _ _ (by omega)
    simp [hin, hout]

/-- A field of more than 8 bits of a word is its bits above the low byte, placed over its low byte. -/
theorem extractLsb'_eq_split (w : Word) (n k : Nat) : w.extractLsb' n (8 + k) =
    ((w.extractLsb' (n + 8) k).setWidth (8 + k) <<< 8) ||| (w.extractLsb' n 8).setWidth (8 + k) := by
  apply BitVec.eq_of_getLsbD_eq
  intro i hi
  by_cases hlow : i < 8
  · simp [hi, hlow]
  · have hhigh : i - 8 < k := by omega
    have hplace : n + 8 + (i - 8) = n + i := by omega
    simp [hi, hlow, hhigh, hplace]

/-! ### The header word -/

section
variable (op len : BitVec 2) (ack : BitVec 1) (pn : BitVec 11) (ck : BitVec 16)

/-- `hdr_word` stands above the checksum in the header's 32-bit value (R93, R131). -/
theorem headerWord_eq_hdrWord_above :
    headerWord op len ack pn ck = (hdrWord op len ack pn).setWidth 32 <<< 16 ||| ck.setWidth 32 := by
  simp [headerWord, hdrWord, BitVec.setWidth_or, BitVec.shiftLeft_or_distrib, setWidth_placed_within,
    ← BitVec.shiftLeft_add]

/-- A field of `hdr_word` is a field of the header's 32-bit value. -/
theorem extractLsb'_hdrWord {n k : Nat} (h : n + k ≤ 16) :
    (hdrWord op len ack pn).extractLsb' n k = (headerWord op len ack pn 0).extractLsb' (16 + n) k := by
  rw [← extractLsb'_extractLsb' _ h, headerWord_eq_hdrWord_above, BitVec.extractLsb'_or,
    extractLsb'_placed _ (by decide), extractLsb'_above_low _ (by decide), BitVec.or_zero]

end

/-! ### The header value read from a word -/

/-- The five fields of R93. -/
def headerOfWord (w : Word) : Header where
  op := w.extractLsb' 30 2
  len := w.extractLsb' 28 2
  ack := w.extractLsb' 27 1
  pn := w.extractLsb' 16 11
  ck := w.extractLsb' 0 16

/-- The header's 32-bit value (R93). -/
def Header.word (h : Header) : Word := headerWord h.op h.len h.ack h.pn h.ck

theorem headerOfWord_word (h : Header) : headerOfWord h.word = h := by
  simp [headerOfWord, Header.word, headerWord, BitVec.extractLsb'_or, extractLsb'_placed, extractLsb'_beside,
    extractLsb'_low_placed, extractLsb'_above_low]

theorem word_headerOfWord (w : Word) : (headerOfWord w).word = w := by
  have hfields := encode_decodeHeader w
  rwa [decodeHeader_eq, encode_headerInstr] at hfields

/-! ### The four wire bytes -/

theorem beU32OfList_hdrPack (h : Header) : beU32OfList (hdrPack h) = h.word :=
  (headerWord_eq_packed h.op h.len h.ack h.pn h.ck).symm

section
variable (b0 b1 b2 b3 : BitVec 8)

theorem extractLsb'_beU32_byte0 : (beU32 b0 b1 b2 b3).extractLsb' 24 8 = b0 := by
  simp [beU32, BitVec.extractLsb'_or, extractLsb'_placed, extractLsb'_beside, extractLsb'_above_low]

theorem extractLsb'_beU32_byte1 : (beU32 b0 b1 b2 b3).extractLsb' 16 8 = b1 := by
  simp [beU32, BitVec.extractLsb'_or, extractLsb'_placed, extractLsb'_beside, extractLsb'_above_low]

theorem extractLsb'_beU32_byte2 : (beU32 b0 b1 b2 b3).extractLsb' 8 8 = b2 := by
  simp [beU32, BitVec.extractLsb'_or, extractLsb'_placed, extractLsb'_beside, extractLsb'_above_low]

theorem extractLsb'_beU32_byte3 : (beU32 b0 b1 b2 b3).extractLsb' 0 8 = b3 := by
  simp [beU32, BitVec.extractLsb'_or, extractLsb'_beside, extractLsb'_low_placed]

/-- A field within the first byte is a field of the word. -/
theorem extractLsb'_byte0 {n k : Nat} (h : n + k ≤ 8) :
    b0.extractLsb' n k = (beU32 b0 b1 b2 b3).extractLsb' (24 + n) k := by
  rw [← extractLsb'_extractLsb' _ h, extractLsb'_beU32_byte0]

/-- Unpacking reads the fields of the bytes' word (R93, R133). -/
theorem hdrUnpack_eq : hdrUnpack b0 b1 b2 b3 = headerOfWord (beU32 b0 b1 b2 b3) := by
  have hpn := extractLsb'_eq_split (beU32 b0 b1 b2 b3) 16 3
  have hck := extractLsb'_eq_split (beU32 b0 b1 b2 b3) 0 8
  rw [extractLsb'_beU32_byte1] at hpn
  rw [extractLsb'_beU32_byte2, extractLsb'_beU32_byte3] at hck
  rw [hdrUnpack, headerOfWord, hpn, hck, extractLsb'_byte0 b0 b1 b2 b3 (n := 6) (by decide),
    extractLsb'_byte0 b0 b1 b2 b3 (n := 4) (by decide), extractLsb'_byte0 b0 b1 b2 b3 (n := 3) (by decide),
    extractLsb'_byte0 b0 b1 b2 b3 (n := 0) (by decide)]
  rfl

end

/-- Four bytes are determined by their word. -/
theorem beU32_inj {a0 a1 a2 a3 b0 b1 b2 b3 : BitVec 8} (h : beU32 a0 a1 a2 a3 = beU32 b0 b1 b2 b3) :
    [a0, a1, a2, a3] = [b0, b1, b2, b3] := by
  have h0 := congrArg (BitVec.extractLsb' 24 8) h
  have h1 := congrArg (BitVec.extractLsb' 16 8) h
  have h2 := congrArg (BitVec.extractLsb' 8 8) h
  have h3 := congrArg (BitVec.extractLsb' 0 8) h
  simp only [extractLsb'_beU32_byte0, extractLsb'_beU32_byte1, extractLsb'_beU32_byte2, extractLsb'_beU32_byte3]
    at h0 h1 h2 h3
  rw [h0, h1, h2, h3]

/-! ### The checksum -/

theorem headerConsistent_iff (h : Header) :
    headerConsistent h = true ↔ h.ck = hdrChecksum h.op h.len h.ack h.pn := beq_iff_eq

/-- The complement of a word is the one value that differs from it in every bit. -/
theorem eq_not_iff_xor {k : Nat} (w c : BitVec k) : c = ~~~w ↔ w ^^^ c = BitVec.allOnes k := by
  rw [← BitVec.xor_right_inj w, ← BitVec.not_xor_right, BitVec.xor_self, BitVec.not_zero]

/-! ### The statements about header values -/

/-- Settles O13: both directions go through the header's 32-bit value, which its fields and its bytes determine. -/
theorem headerPackAndUnpackAreInverse : Obligations.HeaderPackAndUnpackAreInverse := by
  refine ⟨fun h => ⟨_, _, _, _, rfl, ?_⟩, fun b0 b1 b2 b3 => beU32_inj ?_⟩
  · calc hdrUnpack _ _ _ _ = headerOfWord (beU32OfList (hdrPack h)) := hdrUnpack_eq _ _ _ _
      _ = h := by rw [beU32OfList_hdrPack, headerOfWord_word]
  · calc beU32OfList (hdrPack (hdrUnpack b0 b1 b2 b3)) = (headerOfWord (beU32 b0 b1 b2 b3)).word := by
          rw [beU32OfList_hdrPack, hdrUnpack_eq]
      _ = beU32 b0 b1 b2 b3 := word_headerOfWord _

/-- Settles O14: the fields are those of the header's 32-bit value, and the checksum is a complement. -/
theorem headerChecksumIsTheComplement : Obligations.HeaderChecksumIsTheComplement := by
  intro h
  have hfields := headerOfWord_word { h with ck := 0 }
  simp only [headerOfWord, Header.word, Header.mk.injEq] at hfields
  obtain ⟨hop, hlen, hack, hpn, -⟩ := hfields
  refine ⟨?_, ?_, ?_, ?_, ?_, headerConsistent_iff h, (headerConsistent_iff h).trans (eq_not_iff_xor _ _)⟩
  · exact (extractLsb'_hdrWord _ _ _ _ (by decide)).trans hop
  · exact (extractLsb'_hdrWord _ _ _ _ (by decide)).trans hlen
  · exact (extractLsb'_hdrWord _ _ _ _ (by decide)).trans hack
  · exact (extractLsb'_hdrWord _ _ _ _ (by decide)).trans hpn
  · exact (BitVec.allOnes_sub_eq_not _).symm

end Sys2Proof.Machine
end

section
/-! PROOF. The header commands, each with the state it gives (spec/41_header.md R135 to R137). -/

namespace Sys2Proof.Machine

/-! ### The masked packet number -/

theorem packetNumber_toNat (pn16 : BitVec 16) : (packetNumber pn16).toNat = pn16.toNat % 2048 := by
  simp [packetNumber]

theorem packetNumber_setWidth (pn16 : BitVec 16) : (packetNumber pn16).setWidth 16 = pn16 &&& 0x7FF := by
  apply BitVec.eq_of_toNat_eq
  rw [BitVec.toNat_setWidth_of_le (by decide), packetNumber_toNat, BitVec.toNat_and]
  exact (Nat.and_two_pow_sub_one_eq_mod _ 11).symm

/-! ### The state that each command gives -/

/-- The header that HDRMK writes (R135). -/
def madeHeader (op len : BitVec 2) (ack : BitVec 1) (pn16 : BitVec 16) : Header :=
  ⟨op, len, ack, packetNumber pn16, hdrChecksum op len ack (packetNumber pn16)⟩

/-- Its checksum, over the operand with the bits above the packet number masked off. -/
theorem madeHeader_ck (op len : BitVec 2) (ack : BitVec 1) (pn16 : BitVec 16) : (madeHeader op len ack pn16).ck =
    ~~~((op.setWidth 16 <<< 14) ||| (len.setWidth 16 <<< 12) ||| (ack.setWidth 16 <<< 11) ||| (pn16 &&& 0x7FF)) := by
  rw [madeHeader, hdrChecksum, hdrWord, packetNumber_setWidth]

theorem exec_hdrmk (op len : BitVec 2) (ack : BitVec 1) (pn16 : BitVec 16) (s : State) :
    exec (.hdrmk op len ack pn16) s = .next ((s.setHeader (madeHeader op len ack pn16)).finish .ok
      ((madeHeader op len ack pn16).ck.setWidth 32)) := rfl

theorem exec_hdrchk_of_consistent {s : State} (h : HeaderRegistersConsistent s) :
    exec .hdrchk s = .next (s.finish .ok (s.hChecksum.setWidth 32)) :=
  if_pos h

theorem exec_hdrchk_of_inconsistent {s : State} (h : ¬ HeaderRegistersConsistent s) :
    exec .hdrchk s = raise .integHdrchk s :=
  if_neg h

theorem exec_hdrpk (s : State) : exec .hdrpk s = .next (s.finish .ok s.header.word) := by
  rw [← beU32OfList_hdrPack]
  rfl

/-! ### The statements about the commands -/

/-- Settles O21. -/
theorem hdrmkBuildsAConsistentHeader : Obligations.HdrmkBuildsAConsistentHeader := by
  refine ⟨fun op len ack pn16 => decodeOfEncode (.hdrmk op len ack pn16) rfl, fun op len ack pn16 s => ?_⟩
  rw [← madeHeader_ck]
  exact ⟨_, exec_hdrmk op len ack pn16 s, rfl, rfl, rfl, packetNumber_toNat pn16, rfl, ended_finish_ok _ _,
    (keeps_setHeader s _).then (keeps_finish _ _ _)⟩

/-- Settles O22: the check is `headerConsistent` of the header registers. -/
theorem hdrchkVerifiesTheHeader : Obligations.HdrchkVerifiesTheHeader := by
  refine ⟨decodeOfEncode .hdrchk rfl, fun s hck => ?_, fun s hck => ?_⟩
  · exact raisesOnly_of_raise (exec_hdrchk_of_inconsistent (mt (headerConsistent_iff s.header).mp hck))
  · exact ⟨_, exec_hdrchk_of_consistent ((headerConsistent_iff s.header).mpr hck), ended_finish_ok _ _,
      keeps_finish _ _ _⟩

/-- Settles O23: the value is the header's 32-bit value, whose upper half is the header word. -/
theorem hdrpkPacksTheHeader : Obligations.HdrpkPacksTheHeader := by
  refine ⟨decodeOfEncode .hdrpk rfl, fun s => ?_⟩
  rw [← headerWord_eq_hdrWord_above]
  exact ⟨_, exec_hdrpk s, ended_finish_ok _ _, keeps_finish _ _ _⟩

end Sys2Proof.Machine
end

section
/-! PROOF. The codec's commands over single bytes and lengths, each with the state it gives (spec/42_packet_codec.md
R146 to R149, R163 to R165), and the command sequence of `payload_create` (R150). -/

namespace Sys2Proof.Machine

/-- A unit read after a sequence is written from index 0. -/
theorem Memory.read_writeSeq_zero {w : Nat} (m : Memory w) (vs : List (BitVec w)) (a : Nat) :
    Memory.read (Memory.writeSeq m 0 vs) a = if a < vs.length then vs.getD a 0 else Memory.read m a := by
  rw [Memory.read_writeSeq]
  simp

/-! ### PLD written and OK answered: the ending that PLDCLR and PLDW share -/

/-- PLD holds `m` and the response is OK with value 0. -/
def State.loadPld (s : State) (m : Memory 8) : State := (s.setPld m).finish .ok 0

section
variable (s : State)

@[simp] theorem State.loadPld_pld (m : Memory 8) : (s.loadPld m).pld = m := rfl
@[simp] theorem State.loadPld_bufsz (m : Memory 8) : (s.loadPld m).bufsz = s.bufsz := rfl
@[simp] theorem State.loadPld_waiting (m : Memory 8) : (s.loadPld m).waiting = s.waiting := rfl
@[simp] theorem State.loadPld_loadPld (m m' : Memory 8) : (s.loadPld m).loadPld m' = s.loadPld m' := rfl

theorem ended_loadPld (m : Memory 8) : Ended (s.loadPld m) 0x00 0 := ended_finish_ok _ _

theorem keeps_loadPld (m : Memory 8) : KeepsAllBut [.pld, .lastst, .response] s (s.loadPld m) :=
  (keeps_setPld s m).then (keeps_finish _ _ _)

/-- PLD with its first BUFSZ bytes 0 (R147). -/
def State.clearedPld (s : State) : Memory 8 := Memory.writeSeq s.pld 0 (List.replicate s.bufsz.toNat 0)

theorem read_clearedPld (a : Nat) :
    Memory.read s.clearedPld a = if a < s.bufsz.toNat then 0 else Memory.read s.pld a := by
  rw [State.clearedPld, Memory.read_writeSeq_zero, List.length_replicate]
  split
  · next h => rw [List.getD_replicate _ h]
  · rfl

/-! ### The state that each command gives -/

theorem exec_setsz (cls : BitVec 2) :
    exec (.setsz cls) s = .next ((s.setBufsz (classSize cls)).finish .ok ((classSize cls).setWidth 32)) := rfl

theorem exec_pldrd (idx : BitVec 8) :
    exec (.pldrd idx) s = .next (s.finish .ok ((Memory.read s.pld idx.toNat).setWidth 32)) := rfl

theorem exec_frmclr : exec .frmclr s = .next ((s.setFrmlen 0).finish .ok 0) := rfl

variable {s}

theorem exec_pldclr_of_no_size (hsize : s.bufsz = 0) : exec .pldclr s = raise .stateNoSize s :=
  requireSize_of_no_size _ hsize

theorem exec_pldclr_of_size (hsize : s.bufsz ≠ 0) (hinside : s.bufsz.toNat ≤ 256) :
    exec .pldclr s = .next (s.loadPld s.clearedPld) := by
  rw [exec_pldclr, execPldclr, requireSize_of_size _ hsize, accessPld_of_le _ hinside]
  rfl

theorem exec_pldw_of_no_size (hsize : s.bufsz = 0) (idx b : BitVec 8) :
    exec (.pldw idx b) s = raise .stateNoSize s :=
  requireSize_of_no_size _ hsize

theorem exec_pldw_of_le (hsize : s.bufsz ≠ 0) {idx : BitVec 8} (hidx : s.bufsz.toNat ≤ idx.toNat) (b : BitVec 8) :
    exec (.pldw idx b) s = raise .sizePldRange s :=
  (requireSize_of_size _ hsize).trans (if_pos hidx)

/-- An index below BUFSZ: there is a size in force. -/
theorem exec_pldw_of_lt {idx : BitVec 8} (hidx : idx.toNat < s.bufsz.toNat) (b : BitVec 8) :
    exec (.pldw idx b) s = .next (s.loadPld (Memory.write s.pld idx.toNat b)) := by
  have hsize : s.bufsz ≠ 0 := fun hzero => by simp [hzero] at hidx
  exact (requireSize_of_size _ hsize).trans (if_neg (Nat.not_le.mpr hidx))

theorem exec_frmb_of_full (hfull : s.frmlen.toNat = 262) (b : BitVec 8) :
    exec (.frmb b) s = raise .sizeFrmFull s :=
  if_pos hfull

theorem exec_frmb_of_room (hroom : s.frmlen.toNat < 262) (b : BitVec 8) :
    exec (.frmb b) s = .next (((s.setFrm (Memory.write s.frm s.frmlen.toNat b)).setFrmlen (s.frmlen.toNat + 1)).finish
      .ok (BitVec.ofNat 32 (s.frmlen.toNat + 1))) :=
  (if_neg (Nat.ne_of_lt hroom)).trans (accessFrm_of_le _ hroom)

theorem exec_frmrd_outside {idx : BitVec 16} (hidx : 262 ≤ idx.toNat) : exec (.frmrd idx) s = raise .argIndex s :=
  if_pos hidx

theorem exec_frmrd_inside {idx : BitVec 16} (hidx : idx.toNat < 262) :
    exec (.frmrd idx) s = .next (s.finish .ok ((Memory.read s.frm idx.toNat).setWidth 32)) :=
  if_neg (Nat.not_le.mpr hidx)

end

/-- The four sizes, as R146 writes them. -/
theorem classSize_toNat (cls : BitVec 2) : (classSize cls).toNat = 32 * 2 ^ cls.toNat := by
  revert cls
  decide

/-- FRMLEN holds every length up to that of the longest frame. -/
theorem toNat_ofNat_frmlen {n : Nat} (hn : n ≤ 262) : (BitVec.ofNat 16 n).toNat = n :=
  Nat.mod_eq_of_lt (by omega)

/-! ### The sequence of payload_create -/

/-- One PLDW for each byte, from index `i` on: the bytes are written there. -/
theorem execAll_payloadWrites {s : State} (hinside : s.bufsz.toNat ≤ 256) (hwaiting : s.waiting = false)
    (ds : List (BitVec 8)) : ∀ (i : Nat) (m : Memory 8) (is : List Instr), payloadWrites i ds = some is →
      i + ds.length ≤ s.bufsz.toNat → execAll is (s.loadPld m) = .next (s.loadPld (Memory.writeSeq m i ds)) := by
  induction ds with
  | nil =>
    rintro i m _ ⟨⟩ -
    rfl
  | cons d ds ih =>
    intro i m is hwrites hfits
    rw [List.length_cons] at hfits
    rcases payloadWrites_cons i d ds with ⟨-, rest, hrest, hcons⟩ | ⟨hbeyond, -⟩
    · obtain rfl := Option.some.inj (hcons.symm.trans hwrites)
      have hindex : (BitVec.ofNat 8 i).toNat = i := Nat.mod_eq_of_lt (by omega)
      have hbelow : (BitVec.ofNat 8 i).toNat < (s.loadPld m).bufsz.toNat := by
        rw [hindex, State.loadPld_bufsz]
        omega
      rw [execAll_cons_of_next (exec_pldw_of_lt hbelow d) ((s.loadPld_waiting _).trans hwaiting), hindex,
        State.loadPld_loadPld, State.loadPld_pld, ih _ _ _ hrest (by omega), Memory.writeSeq]
    · omega

/-- The pseudo-command `payload_create` (R102): the data over the cleared payload. -/
theorem execAll_pseudoPayloadCreate {s : State} (hsize : s.bufsz ≠ 0) (hinside : s.bufsz.toNat ≤ 256)
    (hwaiting : s.waiting = false) {ds : List (BitVec 8)} (hfits : ds.length ≤ s.bufsz.toNat) :
    ∃ is, pseudoPayloadCreate ds = some is ∧
      execAll is s = .next (s.loadPld (Memory.writeSeq s.clearedPld 0 ds)) := by
  have hexists : pseudoPayloadCreate ds ≠ none := by
    rw [Ne, pseudoPayloadCreate_eq_none_iff]
    omega
  obtain ⟨is, hcreate⟩ := Option.ne_none_iff_exists'.mp hexists
  obtain ⟨writes, hwrites, rfl⟩ := Option.map_eq_some_iff.mp hcreate
  refine ⟨_, hcreate, ?_⟩
  rw [execAll_cons_of_next (exec_pldclr_of_size hsize hinside) ((s.loadPld_waiting _).trans hwaiting)]
  exact execAll_payloadWrites hinside hwaiting ds 0 _ _ hwrites (by omega)

/-! ### The statements about the commands -/

/-- Settles O28: a byte of the data is read back, and beside the data PLDCLR's zeros and what PLD held. -/
theorem payloadCreateLoadsAndZeroFills : Obligations.PayloadCreateLoadsAndZeroFills := by
  intro ds s hsize hinside hfits hwaiting
  obtain ⟨is, hcreate, hrun⟩ := execAll_pseudoPayloadCreate hsize hinside hwaiting hfits
  refine ⟨is, _, hcreate, hrun, fun i hi => ?_, fun i hlow hhigh => ?_, fun i hi => ?_, ended_loadPld _ _,
    keeps_loadPld _ _⟩
  · rw [State.loadPld_pld, Memory.read_writeSeq_zero, if_pos hi]
  · rw [State.loadPld_pld, Memory.read_writeSeq_zero, if_neg (by omega), read_clearedPld, if_pos hhigh]
  · rw [State.loadPld_pld, Memory.read_writeSeq_zero, if_neg (by omega), read_clearedPld, if_neg (by omega)]

/-- Settles O25. -/
theorem pldclrZeroesTheSignificantBytes : Obligations.PldclrZeroesTheSignificantBytes := by
  refine ⟨decodeOfEncode .pldclr rfl, fun s hsize => ?_, fun s hsize hinside => ?_⟩
  · exact raisesOnly_of_raise (exec_pldclr_of_no_size hsize)
  · exact ⟨_, exec_pldclr_of_size hsize hinside, fun a ha => (read_clearedPld s a).trans (if_pos ha),
      fun a ha => (read_clearedPld s a).trans (if_neg (Nat.not_lt.mpr ha)), ended_loadPld _ _, keeps_loadPld _ _⟩

/-- Settles O26. -/
theorem pldwWritesOneByte : Obligations.PldwWritesOneByte := by
  refine ⟨fun idx b => decodeOfEncode (.pldw idx b) rfl, fun idx b s hsize => ?_, fun idx b s hsize hidx => ?_,
    fun idx b s hidx => ?_⟩
  · exact raisesOnly_of_raise (exec_pldw_of_no_size hsize idx b)
  · exact raisesOnly_of_raise (exec_pldw_of_le hsize hidx b)
  · exact ⟨_, exec_pldw_of_lt hidx b, Memory.read_write_same _ _ _, fun _ => Memory.read_write_of_ne _ _,
      ended_loadPld _ _, keeps_loadPld _ _⟩

/-- Settles O32. -/
theorem frmbAppendsOneByte : Obligations.FrmbAppendsOneByte := by
  refine ⟨fun b => decodeOfEncode (.frmb b) rfl, fun b s hfull => ?_, fun b s hroom => ?_⟩
  · exact raisesOnly_of_raise (exec_frmb_of_full hfull b)
  · exact ⟨_, exec_frmb_of_room hroom b, Memory.read_write_same _ _ _, fun _ => Memory.read_write_of_ne _ _,
      toNat_ofNat_frmlen hroom, ended_finish_ok _ _,
      ((keeps_setFrm s _).then (keeps_setFrmlen _ _)).then (keeps_finish _ _ _)⟩

/-- Settles O24: the value is BUFSZ zero-extended. -/
theorem setszSetsTheSize : Obligations.SetszSetsTheSize := by
  refine ⟨fun cls => decodeOfEncode (.setsz cls) rfl, fun cls s => ?_⟩
  rw [← classSize_toNat, BitVec.ofNat_toNat]
  exact ⟨_, exec_setsz s cls, rfl, ended_finish_ok _ _, (keeps_setBufsz s _).then (keeps_finish _ _ _)⟩

/-- Settles O27. -/
theorem pldrdReadsOneByte : Obligations.PldrdReadsOneByte :=
  ⟨fun idx => decodeOfEncode (.pldrd idx) rfl,
    fun idx s => ⟨_, exec_pldrd s idx, ended_finish_ok _ _, keeps_finish _ _ _⟩⟩

/-- Settles O31. -/
theorem frmclrEmptiesTheBuffer : Obligations.FrmclrEmptiesTheBuffer :=
  ⟨decodeOfEncode .frmclr rfl, fun s => ⟨_, exec_frmclr s, rfl, ended_finish_ok _ _,
    (keeps_setFrmlen s 0).then (keeps_finish _ _ _)⟩⟩

/-- Settles O33. -/
theorem frmrdReadsOneByte : Obligations.FrmrdReadsOneByte := by
  refine ⟨fun idx => decodeOfEncode (.frmrd idx) rfl, fun idx s hidx => ?_, fun idx s hidx => ?_⟩
  · exact raisesOnly_of_raise (exec_frmrd_outside hidx)
  · exact ⟨_, exec_frmrd_inside hidx, ended_finish_ok _ _, keeps_finish _ _ _⟩

end Sys2Proof.Machine
end

section
/-! PROOF. SER and DES, each with the state it gives (spec/42_packet_codec.md R151 to R160). -/

namespace Sys2Proof.Machine

/-! ### The bytes of a frame -/

/-- The two bytes of R10, as shifts. -/
theorem be16_eq_shifts (c : BitVec 16) : be16 c = [(c >>> 8).setWidth 8, c.setWidth 8] := by
  rw [be16, ← BitVec.setWidth_ushiftRight_eq_extractLsb, ← BitVec.setWidth_eq_extractLsb' (show 8 ≤ 16 by decide)]

theorem length_hdrPack (h : Header) : (hdrPack h).length = 4 := rfl

theorem length_frameOf (lut : Memory 16) (h : Header) (payload : List (BitVec 8)) :
    (frameOf lut h payload).length = payload.length + 6 := by
  simp [frameOf, length_hdrPack, be16]
  omega

/-! ### The states that SER and DES give -/

/-- The trailer of the frame in FRM, as DES reads it (R160). -/
def frameTrailer (size : Nat) (s : State) : BitVec 16 :=
  beU16 (Memory.read s.frm (size + 4)) (Memory.read s.frm (size + 5))

/-- What SER and DES need besides the frame: a table, and a size within PLD (R50, R152, R158). -/
structure CodecReady (s : State) : Prop where
  table : s.lutv = true
  size : s.bufsz ≠ 0
  inside : s.bufsz.toNat ≤ 256

/-- The frame of such a size lies within FRM (R96). -/
theorem CodecReady.frameLen_le {s : State} (h : CodecReady s) : frameLen s.bufsz.toNat ≤ 262 := by
  rw [frameLen_eq]
  exact Nat.add_le_add_right h.inside 6

/-- The state after SER (R152). -/
def serDone (s : State) : State := (serialized s).finish .ok ((serialized s).crc16.setWidth 32)

/-- The state after a DES that accepts the frame (R160). -/
def desDone (s : State) : State :=
  (commitFrame s.bufsz.toNat s).finish .ok ((commitFrame s.bufsz.toNat s).crc16.setWidth 32)

section
variable (s : State)

@[simp] theorem serDone_lut : (serDone s).lut = s.lut := by simp [serDone, serialized]
@[simp] theorem serDone_lutv : (serDone s).lutv = s.lutv := by simp [serDone, serialized]
@[simp] theorem serDone_header : (serDone s).header = s.header := by simp [serDone, serialized]
@[simp] theorem serDone_pld : (serDone s).pld = s.pld := by simp [serDone, serialized]
@[simp] theorem serDone_bufsz : (serDone s).bufsz = s.bufsz := by simp [serDone, serialized]
@[simp] theorem serDone_frm : (serDone s).frm =
    Memory.writeSeq s.frm 0 (frameOf s.lut s.header (Memory.readSeq s.pld 0 s.bufsz.toNat)) := by
  simp [serDone, serialized]
@[simp] theorem serDone_crc16 : (serDone s).crc16 =
    crc16 s.lut (hdrPack s.header ++ Memory.readSeq s.pld 0 s.bufsz.toNat) := by
  simp [serDone, serialized]
@[simp] theorem desDone_lut : (desDone s).lut = s.lut := by simp [desDone, commitFrame]
@[simp] theorem desDone_lutv : (desDone s).lutv = s.lutv := by simp [desDone, commitFrame]
@[simp] theorem desDone_header : (desDone s).header = frameHeader s := by simp [desDone, commitFrame]
@[simp] theorem desDone_pld :
    (desDone s).pld = Memory.writeSeq s.pld 0 (Memory.readSeq s.frm 4 s.bufsz.toNat) := by
  simp [desDone, commitFrame]
@[simp] theorem desDone_bufsz : (desDone s).bufsz = s.bufsz := by simp [desDone, commitFrame]
@[simp] theorem desDone_frm : (desDone s).frm = s.frm := by simp [desDone, commitFrame]
@[simp] theorem desDone_crc16 : (desDone s).crc16 = frameTrailer s.bufsz.toNat s := by
  simp [desDone, commitFrame, frameTrailer]

end

theorem frmlen_serDone {s : State} (h : CodecReady s) : (serDone s).frmlen.toNat = s.bufsz.toNat + 6 :=
  (toNat_ofNat_frmlen h.frameLen_le).trans (frameLen_eq _)

theorem ended_serDone (s : State) : Ended (serDone s) 0x00 ((serDone s).crc16.setWidth 32) := by
  rw [serDone, State.finish_crc16]
  exact ended_finish_ok _ _

theorem ended_desDone (s : State) : Ended (desDone s) 0x00 ((desDone s).crc16.setWidth 32) := by
  rw [desDone, State.finish_crc16]
  exact ended_finish_ok _ _

theorem keeps_serDone (s : State) : KeepsAllBut [.frm, .frmlen, .crc16, .lastst, .response] s (serDone s) :=
  (keeps_serialized s).then (keeps_finish _ _ _)

theorem keeps_desDone (s : State) : KeepsAllBut
    [.hOpcode, .hLength, .hAck, .hPktnum, .hChecksum, .pld, .crc16, .lastst, .response] s (desDone s) :=
  (keeps_commitFrame s _).then (keeps_finish _ _ _)

theorem readSeq_serDone_frm (s : State) : Memory.readSeq (serDone s).frm 0 (s.bufsz.toNat + 6) =
    frameOf s.lut s.header (Memory.readSeq s.pld 0 s.bufsz.toNat) := by
  have hframe := Memory.readSeq_writeSeq s.frm 0 (frameOf s.lut s.header (Memory.readSeq s.pld 0 s.bufsz.toNat))
  rwa [length_frameOf, Memory.length_readSeq, ← serDone_frm] at hframe

/-- SER writes no byte behind the frame (R152). -/
theorem read_serDone_frm_of_le (s : State) {a : Nat} (ha : s.bufsz.toNat + 6 ≤ a) :
    Memory.read (serDone s).frm a = Memory.read s.frm a := by
  rw [serDone_frm]
  refine Memory.read_writeSeq_outside _ s.frm (.inr ?_)
  rwa [length_frameOf, Memory.length_readSeq, Nat.zero_add]

theorem read_desDone_pld (s : State) (a : Nat) : Memory.read (desDone s).pld a =
    if a < s.bufsz.toNat then Memory.read s.frm (4 + a) else Memory.read s.pld a := by
  rw [desDone_pld, Memory.read_writeSeq_zero, Memory.length_readSeq]
  split
  · next h => exact Memory.getD_readSeq s.frm _ 4 a h
  · rfl

/-! ### The two validations (R159) -/

section
variable {size : Nat} {s : State}

theorem frameError_of_residual (h : crc16 s.lut (Memory.readSeq s.frm 0 (size + 6)) ≠ 0) :
    frameError size s = some .integCrc := by
  rw [frameError, frameLen_eq, if_pos h]

theorem frameError_of_inconsistent (hcrc : crc16 s.lut (Memory.readSeq s.frm 0 (size + 6)) = 0)
    (hck : ¬ headerConsistent (frameHeader s) = true) : frameError size s = some .integHdrchk := by
  rw [frameError, frameLen_eq, if_neg (not_not.mpr hcrc), if_neg hck]

theorem frameError_of_good (hcrc : crc16 s.lut (Memory.readSeq s.frm 0 (size + 6)) = 0)
    (hck : headerConsistent (frameHeader s) = true) : frameError size s = none := by
  rw [frameError, frameLen_eq, if_neg (not_not.mpr hcrc), if_pos hck]

end

/-! ### What each command does -/

section
variable {s : State}

theorem exec_ser_of_no_table (htable : s.lutv = false) (cap : BitVec 16) : exec (.ser cap) s = raise .stateNoLut s :=
  requireTable_of_no_table _ htable

theorem exec_ser_of_no_size (htable : s.lutv = true) (hsize : s.bufsz = 0) (cap : BitVec 16) :
    exec (.ser cap) s = raise .stateNoSize s :=
  (requireTable_of_table _ htable).trans (requireSize_of_no_size _ hsize)

theorem exec_ser_of_short (htable : s.lutv = true) (hsize : s.bufsz ≠ 0) {cap : BitVec 16}
    (hcap : cap.toNat < s.bufsz.toNat + 6) : exec (.ser cap) s = raise .sizeSerCap s := by
  rw [exec_ser, execSer, requireTable_of_table _ htable, requireSize_of_size _ hsize, frameLen_eq, if_pos hcap]

theorem exec_ser_of_ready (h : CodecReady s) {cap : BitVec 16} (hcap : s.bufsz.toNat + 6 ≤ cap.toNat) :
    exec (.ser cap) s = .next (serDone s) := by
  have hroom : ¬ cap.toNat < frameLen s.bufsz.toNat := by rwa [frameLen_eq, Nat.not_lt]
  rw [exec_ser, execSer, requireTable_of_table _ h.table, requireSize_of_size _ h.size, if_neg hroom,
    accessPld_of_le _ h.inside, accessFrm_of_le _ h.frameLen_le]
  simp only [respond, serDone, serialized, State.setCrc16_crc16]

theorem exec_des_of_no_table (htable : s.lutv = false) : exec .des s = raise .stateNoLut s :=
  requireTable_of_no_table _ htable

theorem exec_des_of_no_size (htable : s.lutv = true) (hsize : s.bufsz = 0) : exec .des s = raise .stateNoSize s :=
  (requireTable_of_table _ htable).trans (requireSize_of_no_size _ hsize)

theorem exec_des_of_short (htable : s.lutv = true) (hsize : s.bufsz ≠ 0)
    (hlen : s.frmlen.toNat < s.bufsz.toNat + 6) : exec .des s = raise .sizeDesShort s := by
  rw [exec_des, execDes, requireTable_of_table _ htable, requireSize_of_size _ hsize, frameLen_eq, if_pos hlen]

variable (h : CodecReady s) (hwhole : s.bufsz.toNat + 6 ≤ s.frmlen.toNat)
include h hwhole

/-- DES of a whole frame: the cause of the validation that fails, or the commit. -/
theorem exec_des_of_whole :
    exec .des s = (frameError s.bufsz.toNat s).elim (.next (desDone s)) (fun c => raise c s) := by
  have hlong : ¬ s.frmlen.toNat < frameLen s.bufsz.toNat := by rwa [frameLen_eq, Nat.not_lt]
  rw [exec_des, execDes, requireTable_of_table _ h.table, requireSize_of_size _ h.size, if_neg hlong,
    accessPld_of_le _ h.inside, accessFrm_of_le _ h.frameLen_le]
  cases frameError s.bufsz.toNat s <;> rfl

theorem exec_des_of_frameError {c : Status} (herror : frameError s.bufsz.toNat s = some c) :
    exec .des s = raise c s := by
  rw [exec_des_of_whole h hwhole, herror, Option.elim_some]

theorem exec_des_of_accepted (hgood : frameError s.bufsz.toNat s = none) : exec .des s = .next (desDone s) := by
  rw [exec_des_of_whole h hwhole, hgood, Option.elim_none]

end

/-! ### The statements about SER and DES -/

/-- Settles O29. -/
theorem serWritesTheFrame : Obligations.SerWritesTheFrame := by
  refine ⟨fun cap => decodeOfEncode (.ser cap) rfl, fun cap s htable => ?_, fun cap s htable hsize => ?_,
    fun cap s htable hsize hcap => ?_, fun cap s htable hsize hinside hcap => ?_⟩
  · exact raisesOnly_of_raise (exec_ser_of_no_table htable cap)
  · exact raisesOnly_of_raise (exec_ser_of_no_size htable hsize cap)
  · exact raisesOnly_of_raise (exec_ser_of_short htable hsize hcap)
  · intro n body c
    have hready : CodecReady s := ⟨htable, hsize, hinside⟩
    have hc : (serDone s).crc16 = c := serDone_crc16 s
    rw [← be16_eq_shifts]
    exact ⟨_, exec_ser_of_ready hready hcap, readSeq_serDone_frm s, fun a => read_serDone_frm_of_le s,
      frmlen_serDone hready, hc, hc ▸ ended_serDone s, keeps_serDone s⟩

/-- Settles O30: the two validations in their order, then the commit. -/
theorem desValidatesAndUnpacks : Obligations.DesValidatesAndUnpacks := by
  refine ⟨decodeOfEncode .des rfl, fun s htable => ?_, fun s htable hsize => ?_, fun s htable hsize hlen => ?_,
    fun s htable hsize hinside hwhole => ?_⟩
  · exact raisesOnly_of_raise (exec_des_of_no_table htable)
  · exact raisesOnly_of_raise (exec_des_of_no_size htable hsize)
  · exact raisesOnly_of_raise (exec_des_of_short htable hsize hlen)
  · intro B residual h c
    have hready : CodecReady s := ⟨htable, hsize, hinside⟩
    refine ⟨fun hcrc => ?_, fun hcrc hck => ?_, fun hcrc hck => ?_⟩
    · exact raisesOnly_of_raise (exec_des_of_frameError hready hwhole (frameError_of_residual hcrc))
    · have hbad := mt (headerConsistent_iff (frameHeader s)).mp hck
      exact raisesOnly_of_raise (exec_des_of_frameError hready hwhole (frameError_of_inconsistent hcrc hbad))
    · have hgood := frameError_of_good hcrc ((headerConsistent_iff (frameHeader s)).mpr hck)
      exact ⟨_, exec_des_of_accepted hready hwhole hgood, desDone_header s,
        fun a ha => (read_desDone_pld s a).trans (if_pos ha),
        fun a ha => (read_desDone_pld s a).trans (if_neg (Nat.not_lt.mpr ha)), desDone_crc16 s, ended_desDone s,
        keeps_desDone s⟩

end Sys2Proof.Machine
end

section
/-! PROOF. SER and DES as inverses (spec/42_packet_codec.md R161): each leaves FRM holding the frame of the registers,
and of such a state SER writes the frame that stands there and DES commits what the registers hold. -/

namespace Sys2Proof.Machine

/-! ### Sequences in a memory -/

/-- Writing what a memory in canonical form holds already leaves it as it is. -/
theorem Memory.writeSeq_eq_self {w : Nat} {m : Memory w} (hwf : Memory.wf m = true) {a : Nat} {vs : List (BitVec w)}
    (hheld : Memory.readSeq m a vs.length = vs) : Memory.writeSeq m a vs = m := by
  refine Memory.ext_of_wf (Memory.wf_writeSeq vs m a hwf) hwf fun b => ?_
  rw [Memory.read_writeSeq]
  split
  · next h =>
    have hread := Memory.getD_readSeq m vs.length a (b - a) (by omega)
    rwa [hheld, Nat.add_sub_cancel' h.1] at hread
  · rfl

/-! ### A frame and its parts -/

theorem be16_beU16 (hi lo : BitVec 8) : be16 (beU16 hi lo) = [hi, lo] := by
  have hhigh : (beU16 hi lo).extractLsb' 8 8 = hi := by
    ext i h
    simp [beU16, BitVec.getLsbD_eq_getElem h, show 8 + i < 16 by omega]
  have hlow : (beU16 hi lo).extractLsb' 0 8 = lo := by
    ext i h
    simp [beU16, h, show i < 16 by omega]
  rw [be16, hhigh, hlow]

/-- A half is determined by its two bytes. -/
theorem be16_inj {c c' : BitVec 16} (h : be16 c = be16 c') : c = c' := by
  simp only [be16, List.cons.injEq, and_true] at h
  obtain ⟨hhigh, hlow⟩ := h
  rw [← beU16_of_bytes c, ← beU16_of_bytes c', hhigh, hlow]

/-- A header is determined by its four bytes (R134). -/
theorem hdrPack_inj {h h' : Header} (heq : hdrPack h = hdrPack h') : h = h' := by
  rw [← headerOfWord_word h, ← headerOfWord_word h', ← beU32OfList_hdrPack, ← beU32OfList_hdrPack, heq]

/-- The parts of a frame are determined by its bytes and the payload's length (R96). -/
theorem frame_parts_inj {h h' : Header} {p p' : List (BitVec 8)} {c c' : BitVec 16} (hlen : p.length = p'.length)
    (heq : hdrPack h ++ p ++ be16 c = hdrPack h' ++ p' ++ be16 c') : h = h' ∧ p = p' ∧ c = c' := by
  rw [List.append_assoc, List.append_assoc] at heq
  obtain ⟨hheader, hrest⟩ := List.append_inj heq rfl
  obtain ⟨hpayload, htrailer⟩ := List.append_inj hrest hlen
  exact ⟨hdrPack_inj hheader, hpayload, be16_inj htrailer⟩

theorem hdrPack_frameHeader (s : State) : hdrPack (frameHeader s) = Memory.readSeq s.frm 0 4 :=
  headerPackAndUnpackAreInverse.2 _ _ _ _

theorem be16_frameTrailer (size : Nat) (s : State) :
    be16 (frameTrailer size s) = Memory.readSeq s.frm (4 + size) 2 := by
  rw [frameTrailer, be16_beU16, Nat.add_comm 4]
  rfl

/-- The bytes of a frame in FRM are the parts that DES reads from them. -/
theorem readSeq_frm_eq_parts (size : Nat) (s : State) : Memory.readSeq s.frm 0 (size + 6) =
    hdrPack (frameHeader s) ++ Memory.readSeq s.frm 4 size ++ be16 (frameTrailer size s) := by
  rw [hdrPack_frameHeader, be16_frameTrailer, show size + 6 = 4 + size + 2 by omega, Memory.readSeq_add,
    Memory.readSeq_add, Nat.zero_add, Nat.zero_add]

/-! ### FRM holding the frame of the registers -/

/-- The bytes that the CRC of R151 covers: the packed header registers and the payload. -/
def frameBody (s : State) : List (BitVec 8) := hdrPack s.header ++ Memory.readSeq s.pld 0 s.bufsz.toNat

/-- CRC16 is the CRC of the registers' frame, and FRM holds that frame. -/
structure FrameInStep (s : State) : Prop where
  crc : s.crc16 = crc16 s.lut (frameBody s)
  frame : Memory.readSeq s.frm 0 (s.bufsz.toNat + 6) = frameBody s ++ be16 s.crc16

theorem frameBody_serDone (s : State) : frameBody (serDone s) = frameBody s := by simp [frameBody]

theorem frameOf_registers (s : State) : frameOf s.lut s.header (Memory.readSeq s.pld 0 s.bufsz.toNat) =
    frameBody s ++ be16 (crc16 s.lut (frameBody s)) := by
  rw [frameOf, frameBody]

/-- SER leaves the registers' frame in FRM. -/
theorem frameInStep_serDone (s : State) : FrameInStep (serDone s) where
  crc := by rw [serDone_crc16, serDone_lut, frameBody_serDone, frameBody]
  frame := by
    rw [serDone_crc16, frameBody_serDone, serDone_bufsz, ← frameBody, ← frameOf_registers]
    exact readSeq_serDone_frm s

/-- A fold over a table that is POLY's (R50 item 6). -/
theorem crc16_of_tableOfPoly {s : State} (h : TableOfPoly s) : crc16 s.lut = crc16 (lutTable s.poly) := by
  have hstep : crcStep s.lut = crcStep (lutTable s.poly) := by
    funext c b
    rw [crcStep, crcStep, h, read_lutTable]
  funext d
  rw [crc16, crc16, hstep]

/-- DES commits the parts of the frame in FRM, so its bytes are those of the registers' frame but for the trailer. -/
theorem readSeq_desDone_frm (s : State) : Memory.readSeq (desDone s).frm 0 ((desDone s).bufsz.toNat + 6) =
    frameBody (desDone s) ++ be16 (desDone s).crc16 := by
  have hpayload := Memory.readSeq_writeSeq s.pld 0 (Memory.readSeq s.frm 4 s.bufsz.toNat)
  rw [Memory.length_readSeq] at hpayload
  rw [frameBody, desDone_frm, desDone_bufsz, desDone_header, desDone_pld, desDone_crc16, hpayload]
  exact readSeq_frm_eq_parts _ s

/-- With an x^0 term the trailer of a frame whose CRC passes is the CRC of the rest (R120). -/
theorem frameInStep_desDone {s : State} (htable : TableOfPoly s) (hodd : s.poly.getLsbD 0 = true)
    (hcrc : crc16 s.lut (Memory.readSeq s.frm 0 (s.bufsz.toNat + 6)) = 0) : FrameInStep (desDone s) := by
  have hframe := readSeq_desDone_frm s
  refine ⟨?_, hframe⟩
  rw [desDone_frm, desDone_bufsz] at hframe
  rw [hframe, crc16_of_tableOfPoly htable] at hcrc
  have htrailer := trailerIsTheCrcForOddPolynomials s.poly _ _ _ hodd hcrc
  rwa [beU16_of_bytes, ← crc16_of_tableOfPoly htable, ← desDone_lut] at htrailer

section
variable {s : State} (h : FrameInStep s)
include h

/-- DES reads from FRM what the registers hold. -/
theorem FrameInStep.parts : frameHeader s = s.header ∧
    Memory.readSeq s.frm 4 s.bufsz.toNat = Memory.readSeq s.pld 0 s.bufsz.toNat ∧
    frameTrailer s.bufsz.toNat s = s.crc16 :=
  frame_parts_inj (by simp) ((readSeq_frm_eq_parts _ s).symm.trans h.frame)

/-- The self-verification law (R119), over the frame. -/
theorem FrameInStep.residual_eq_zero (htable : TableOfPoly s) :
    crc16 s.lut (Memory.readSeq s.frm 0 (s.bufsz.toNat + 6)) = 0 := by
  rw [h.frame, h.crc, crc16_of_tableOfPoly htable]
  exact crc16_append_be16 s.poly _

theorem FrameInStep.desDone_eq (hpld : Memory.wf s.pld = true) :
    desDone s = s.finish .ok (s.crc16.setWidth 32) := by
  obtain ⟨hheader, hpayload, htrailer⟩ := h.parts
  have hcommit : commitFrame s.bufsz.toNat s = s := by
    have hwrite : Memory.writeSeq s.pld 0 (Memory.readSeq s.pld 0 s.bufsz.toNat) = s.pld :=
      Memory.writeSeq_eq_self hpld (by rw [Memory.length_readSeq])
    rw [frameTrailer] at htrailer
    rw [commitFrame, hheader, hpayload, hwrite, htrailer]
    rfl
  rw [desDone, hcommit]

theorem FrameInStep.serDone_frm_eq (hfrm : Memory.wf s.frm = true) : (serDone s).frm = s.frm := by
  have hlen := length_frameOf s.lut s.header (Memory.readSeq s.pld 0 s.bufsz.toNat)
  rw [Memory.length_readSeq] at hlen
  rw [serDone_frm]
  refine Memory.writeSeq_eq_self hfrm ?_
  rw [hlen, h.frame, frameOf_registers, h.crc]

end

/-! ### SER, then DES -/

/-- The sizes of R50 lie within PLD. -/
theorem Invariant.codecReady {s : State} (h : Invariant s) (htable : s.lutv = true) (hsize : s.bufsz ≠ 0) :
    CodecReady s := by
  refine ⟨htable, hsize, ?_⟩
  have hlegal : ∀ v ∈ ([0, 32, 64, 128, 256] : List (BitVec 16)), v.toNat ≤ 256 := by simp
  exact hlegal _ h.bufsz_legal

section
variable {s : State}

/-- SER leaves what the next command needs. -/
theorem CodecReady.serDone (h : CodecReady s) : CodecReady (serDone s) where
  table := (serDone_lutv s).trans h.table
  size := by rw [serDone_bufsz]; exact h.size
  inside := by rw [serDone_bufsz]; exact h.inside

theorem frame_within_frmlen_serDone (h : CodecReady s) : (serDone s).bufsz.toNat + 6 ≤ (serDone s).frmlen.toNat := by
  rw [frmlen_serDone h, serDone_bufsz]

theorem Invariant.serDone (h : Invariant s) (hready : CodecReady s) : Invariant (serDone s) :=
  (h.serialized hready.inside).finish _ _

variable (hinv : Invariant s) (hready : CodecReady s)
include hinv hready

theorem residual_serDone :
    crc16 (serDone s).lut (Memory.readSeq (serDone s).frm 0 ((serDone s).bufsz.toNat + 6)) = 0 :=
  (frameInStep_serDone s).residual_eq_zero ((hinv.serDone hready).table hready.serDone.table)

/-- The CRC of the frame that SER wrote passes, so DES ends with what the header check says of the header registers. -/
theorem frameError_serDone : frameError (serDone s).bufsz.toNat (serDone s) =
    if headerConsistent s.header then none else some .integHdrchk := by
  have hcrc := residual_serDone hinv hready
  have hheader : frameHeader (serDone s) = s.header := (frameInStep_serDone s).parts.1.trans (serDone_header s)
  split
  · next hck => exact frameError_of_good hcrc (hheader ▸ hck)
  · next hck => exact frameError_of_inconsistent hcrc (hheader ▸ hck)

end

/-- Settles O34: DES after SER commits what the registers hold already. -/
theorem serThenDesReproducesThePacket : Obligations.SerThenDesReproducesThePacket := by
  intro cap s hinv htable hsize hcap hck
  have hready := hinv.codecReady htable hsize
  have hgood : frameError (serDone s).bufsz.toNat (serDone s) = none :=
    (frameError_serDone hinv hready).trans (if_pos hck)
  have hdes := exec_des_of_accepted hready.serDone (frame_within_frmlen_serDone hready) hgood
  rw [(frameInStep_serDone s).desDone_eq (hinv.serDone hready).pld_form.1] at hdes
  exact ⟨_, _, exec_ser_of_ready hready hcap, hdes, ended_finish_ok _ _,
    (State.finish_header _ _ _).trans (serDone_header s), fun a => by rw [State.finish_pld, serDone_pld],
    State.finish_crc16 _ _ _, keeps_finish _ _ _⟩

/-- Settles O35. -/
theorem serOfInconsistentHeaderIsRejected : Obligations.SerOfInconsistentHeaderIsRejected := by
  intro cap s hinv htable hsize hcap hck
  have hready := hinv.codecReady htable hsize
  have herror : frameError (serDone s).bufsz.toNat (serDone s) = some .integHdrchk :=
    (frameError_serDone hinv hready).trans (if_neg (Bool.eq_false_iff.mp hck))
  exact ⟨_, exec_ser_of_ready hready hcap, ended_serDone s,
    raisesOnly_of_raise (exec_des_of_frameError hready.serDone (frame_within_frmlen_serDone hready) herror)⟩

/-! ### DES, then SER -/

/-- OK is the one status with code 0 (R203). -/
theorem status_eq_ok_of_code {c : Status} (h : c.code = 0x00) : c = .ok := by
  cases c with
  | ok => rfl
  | _ => exact absurd h (by decide)

/-- A command that ended with OK did not end with an error. -/
theorem not_errsWith_of_ok {causes : List Status} {s t : State} (hlast : t.lastst = 0x00) (hok : .ok ∉ causes) :
    ¬ ErrsWith causes s t := by
  rintro ⟨c, hc, rfl⟩
  exact hok (status_eq_ok_of_code hlast ▸ hc)

theorem not_raise_of_ok {i : Instr} {s t : State} {c : Status} (hexec : exec i s = .next t) (hlast : t.lastst = 0x00)
    (hc : .ok ∉ [c]) : exec i s ≠ raise c s := fun hraise =>
  not_errsWith_of_ok hlast hc ⟨c, List.mem_singleton_self c, raise_next.mp (hraise.symm.trans hexec)⟩

/-- A SER that ended with OK passed its checks. -/
theorem exec_ser_ok {cap : BitVec 16} {s t : State} (hexec : exec (.ser cap) s = .next t) (hlast : t.lastst = 0x00) :
    CodecReady s ∧ t = serDone s := by
  rcases execSer_next hexec with herr | ⟨htable, hinside, -, rfl⟩
  · exact absurd herr (not_errsWith_of_ok hlast (by decide))
  · exact ⟨⟨htable, fun hsize => not_raise_of_ok hexec hlast (by decide) (exec_ser_of_no_size htable hsize cap),
      hinside⟩, rfl⟩

/-- A DES that ended with OK passed its checks. -/
theorem exec_des_ok {s t : State} (hexec : exec .des s = .next t) (hlast : t.lastst = 0x00) :
    CodecReady s ∧ frameError s.bufsz.toNat s = none ∧ t = desDone s := by
  rcases execDes_next hexec with herr | ⟨htable, hinside, -, hgood, rfl⟩
  · exact absurd herr (not_errsWith_of_ok hlast (by decide))
  · exact ⟨⟨htable, fun hsize => not_raise_of_ok hexec hlast (by decide) (exec_des_of_no_size htable hsize),
      hinside⟩, hgood, rfl⟩

theorem residual_of_accepted {size : Nat} {s : State} (h : frameError size s = none) :
    crc16 s.lut (Memory.readSeq s.frm 0 (size + 6)) = 0 := by
  by_contra hcrc
  simp [frameError_of_residual hcrc] at h

theorem CodecReady.desDone {s : State} (h : CodecReady s) : CodecReady (desDone s) where
  table := (desDone_lutv s).trans h.table
  size := by rw [desDone_bufsz]; exact h.size
  inside := by rw [desDone_bufsz]; exact h.inside

/-- Settles O36: the frame in FRM is that of the registers DES committed, so SER writes what is there. -/
theorem desThenSerRewritesTheFrame : Obligations.DesThenSerRewritesTheFrame := by
  intro cap s t hinv hodd hcap hexec hlast
  obtain ⟨hready, hgood, rfl⟩ := exec_des_ok hexec hlast
  have hframe := frameInStep_desDone (hinv.table hready.table) hodd (residual_of_accepted hgood)
  have hcrc : (serDone (desDone s)).crc16 = (desDone s).crc16 := (serDone_crc16 _).trans hframe.crc.symm
  have hfrm : (serDone (desDone s)).frm = s.frm := hframe.serDone_frm_eq hinv.frm_form.1
  refine ⟨_, exec_ser_of_ready hready.desDone hcap, ?_, fun a => by rw [hfrm], hcrc⟩
  rw [← hcrc]
  exact ended_serDone _

end Sys2Proof.Machine
end

section
/-! PROOF. One changed byte changes the CRC when the polynomial has an x^0 term, so DES rejects the frame
(spec/40_crc.md R123, spec/42_packet_codec.md R162). -/

namespace Sys2Proof.Machine

/-! ### A fold that loses nothing -/

section
variable {poly : BitVec 16} (hodd : poly.getLsbD 0 = true)
include hodd

theorem lutShifts_injective (k : Nat) : Function.Injective (lutShifts poly k) := by
  intro c c' h
  have hdiff : lutShifts poly k (c ^^^ c') = 0 := by
    rw [lutShifts_xor]
    exact BitVec.xor_eq_zero_iff.mpr h
  exact BitVec.xor_eq_zero_iff.mp (eq_zero_of_lutShifts_eq_zero poly hodd k _ hdiff)

/-- A fold step determines the accumulator it began with. -/
theorem crcStep_injective (b : BitVec 8) : Function.Injective fun c => crcStep (lutTable poly) c b := by
  intro c c' h
  simp only [crcStep_lutTable] at h
  exact (BitVec.xor_left_inj _).mp (lutShifts_injective hodd 8 h)

/-- A fold step determines the byte folded. -/
theorem crcStep_byte_injective (c : BitVec 16) : Function.Injective (crcStep (lutTable poly) c) := by
  intro b b' h
  rw [crcStep_lutTable, crcStep_lutTable] at h
  have hplaced := (BitVec.xor_right_inj _).mp (lutShifts_injective hodd 8 h)
  bv_omega

theorem foldl_crcStep_injective (ds : List (BitVec 8)) :
    Function.Injective fun c => ds.foldl (crcStep (lutTable poly)) c := by
  induction ds with
  | nil => exact fun _ _ h => h
  | cons d ds ih => exact fun _ _ h => crcStep_injective hodd d (ih h)

/-- Sequences that differ in one byte differ in their CRC. -/
theorem crc16_byte_injective (d e : List (BitVec 8)) :
    Function.Injective fun b => crc16 (lutTable poly) (d ++ b :: e) := by
  intro b b' h
  simp only [crc16_append, List.foldl_cons] at h
  exact crcStep_byte_injective hodd _ (foldl_crcStep_injective hodd e h)

end

/-! ### One changed byte of a frame -/

/-- A sequence read from a memory, taken apart at one of its units. -/
theorem Memory.readSeq_eq_around {w : Nat} (m : Memory w) {a n : Nat} (h : a < n) : Memory.readSeq m 0 n =
    Memory.readSeq m 0 a ++ Memory.read m a :: Memory.readSeq m (a + 1) (n - (a + 1)) := by
  obtain ⟨k, rfl⟩ : ∃ k, n = a + (k + 1) := ⟨n - (a + 1), by omega⟩
  rw [Memory.readSeq_add, Nat.zero_add, Memory.readSeq, show a + (k + 1) - (a + 1) = k by omega]

/-- A write changes one unit of a sequence read. -/
theorem Memory.readSeq_write_eq_around {w : Nat} (m : Memory w) (v : BitVec w) {a n : Nat} (h : a < n) :
    Memory.readSeq (Memory.write m a v) 0 n =
      Memory.readSeq m 0 a ++ v :: Memory.readSeq m (a + 1) (n - (a + 1)) := by
  rw [Memory.readSeq_eq_around _ h, Memory.read_write_same]
  congr 1
  · exact Memory.readSeq_congr _ _ _ _ _ fun i hi => Memory.read_write_of_ne m v (by omega)
  · congr 1
    exact Memory.readSeq_congr _ _ _ _ _ fun i _ => Memory.read_write_of_ne m v (by omega)

/-- A CRC over a sequence in memory changes with any one of its units. -/
theorem crc16_readSeq_write_ne {poly : BitVec 16} (hodd : poly.getLsbD 0 = true) (m : Memory 8) {a n : Nat} (h : a < n)
    {b : BitVec 8} (hb : b ≠ Memory.read m a) : crc16 (lutTable poly) (Memory.readSeq (Memory.write m a b) 0 n) ≠
      crc16 (lutTable poly) (Memory.readSeq m 0 n) := by
  rw [Memory.readSeq_eq_around m h, Memory.readSeq_write_eq_around m b h]
  exact fun heq => hb (crc16_byte_injective hodd _ _ heq)

/-- Settles O37: the frame as SER wrote it has residual 0, so the changed one has not. -/
theorem oneChangedByteIsRejected : Obligations.OneChangedByteIsRejected := by
  intro cap s t a b hinv hodd hexec hlast ha hb
  obtain ⟨hready, rfl⟩ := exec_ser_ok hexec hlast
  have htable : crc16 (serDone s).lut = crc16 (lutTable s.poly) := by
    rw [serDone_lut, crc16_of_tableOfPoly (hinv.table hready.table)]
  have hwhole := residual_serDone hinv hready
  rw [htable, serDone_bufsz] at hwhole
  have hchanged := crc16_readSeq_write_ne hodd (serDone s).frm ha hb
  rw [hwhole, ← htable] at hchanged
  refine raisesOnly_of_raise (c := .integCrc) (exec_des_of_frameError ?_ ?_ (frameError_of_residual ?_))
  · exact ⟨hready.serDone.table, hready.serDone.size, hready.serDone.inside⟩
  · rw [State.setFrm_bufsz, State.setFrm_frmlen]
    exact frame_within_frmlen_serDone hready
  · rwa [State.setFrm_bufsz, serDone_bufsz]

end Sys2Proof.Machine
end

section
/-! PROOF. The framer's commands TX, RX, SESSEND and RD, each with the state it gives (spec/43_framer_session.md R176,
R177, R186, R187). -/

namespace Sys2Proof.Machine

/-! ### The states that the commands give -/

section
variable {s : State}

theorem exec_tx_of_le (hlen : s.frmlen.toNat ≤ 262) : exec .tx s =
    .next ((s.send (Memory.readSeq s.frm 0 s.frmlen.toNat)).finish .ok (s.frmlen.setWidth 32)) :=
  accessFrm_of_le _ hlen

theorem exec_rx_of_no_size (hsize : s.bufsz = 0) : exec .rx s = raise .stateNoSize s :=
  requireSize_of_no_size _ hsize

/-- RX of a size within PLD: the whole frame, or the wait with what did arrive (R177, R215). -/
theorem exec_rx_of_size (hsize : s.bufsz ≠ 0) (hinside : s.bufsz.toNat ≤ 256) : exec .rx s =
    if s.delivers (s.bufsz.toNat + 6) then
      .next (((s.receive (s.bufsz.toNat + 6)).setFrmlen (s.bufsz.toNat + 6)).finish .ok
        (BitVec.ofNat 32 (s.bufsz.toNat + 6)))
    else .next (s.receive (s.bufsz.toNat + 6)).hang := by
  have hframe : s.bufsz.toNat + 6 ≤ 262 := Nat.add_le_add_right hinside 6
  rw [exec_rx, execRx, requireSize_of_size _ hsize, frameLen_eq, accessFrm_of_le _ hframe]
  rfl

theorem exec_sessend (s : State) : exec .sessend s = .next (s.clearInstance.finish .ok 0) := rfl

theorem exec_rd_outside {r : BitVec 8} (hr : 14 < r.toNat) : exec (.rd r) s = .next (s.answer .argIndex 0) :=
  if_pos hr

theorem exec_rd_of_value {r : BitVec 8} (hr : r.toNat ≤ 14) {v : BitVec 32}
    (hvalue : registerValue r.toNat s = some v) : exec (.rd r) s = .next (s.answer .ok v) := by
  have hinside : ¬ Config.regCount ≤ r.toNat := Nat.not_le.mpr (Nat.lt_succ_of_le hr)
  rw [exec_rd, execRd, if_neg hinside, hvalue]
  rfl

/-! ### What a receive leaves in FRM and ENV.rxq -/

/-- The bytes received stand in FRM in order, and behind them is what stood there before. -/
theorem read_receive_frm {n : Nat} (hall : n ≤ s.rxq.length) (a : Nat) :
    Memory.read (s.receive n).frm a = if a < n then s.rxq.getD a 0 else Memory.read s.frm a := by
  rw [State.receive_frm, Memory.read_writeSeq_zero, List.length_take_of_le hall]
  split
  · next ha => rw [List.getD_eq_getElem?_getD, List.getElem?_take_of_lt ha, ← List.getD_eq_getElem?_getD]
  · rfl

/-- A receive of more than will arrive takes everything. -/
theorem receive_rxq_of_few {n : Nat} (hfew : s.rxq.length ≤ n) : (s.receive n).rxq = [] :=
  List.drop_eq_nil_of_le hfew

end

/-! ### The registers as numbers (R47) -/

/-- The values of the 15 registers, in the order of their numbers. -/
def registerNumbers (s : State) : List Nat :=
  [s.lastst.toNat + 256 * s.lutv.toNat + 512 * s.sess.toNat, s.poly.toNat, s.crcacc.toNat, s.hOpcode.toNat,
    s.hLength.toNat, s.hAck.toNat, s.hPktnum.toNat, s.hChecksum.toNat, s.bufsz.toNat, s.crc16.toNat, s.ackf.toNat,
    s.npkt.toNat, s.psize.toNat, s.frmlen.toNat, [1, 8, 16, 32, 64, 128, 256, 512].getD s.ackf.toNat 0]

/-- The fields of STATUS do not overlap, so they add up (R45). -/
theorem statusView_eq (s : State) :
    statusView s = BitVec.ofNat 32 (s.lastst.toNat + 256 * s.lutv.toNat + 512 * s.sess.toNat) := by
  have hlutv : (BitVec.ofBool s.lutv).setWidth 32 <<< 8 = BitVec.ofNat 32 (s.lutv.toNat <<< 8) := by
    cases s.lutv <;> rfl
  have hsess : (BitVec.ofBool s.sess).setWidth 32 <<< 9 = BitVec.ofNat 32 (s.sess.toNat <<< 9) := by
    cases s.sess <;> rfl
  have hbit : s.lutv.toNat < 2 := s.lutv.toNat_lt
  have hlow := Nat.shiftLeft_add_eq_or_of_lt s.lastst.isLt s.lutv.toNat
  have hbelow : s.lutv.toNat <<< 8 + s.lastst.toNat < 2 ^ 9 := by omega
  have hall := Nat.shiftLeft_add_eq_or_of_lt hbelow s.sess.toNat
  rw [statusView, hlutv, hsess, ← BitVec.ofNat_toNat, ← BitVec.ofNat_or, ← BitVec.ofNat_or, Nat.or_comm,
    Nat.or_comm s.lastst.toNat, ← hlow, ← hall]
  congr 1
  omega

/-- `ACKTAB` holds the eight periods of R99. -/
theorem ackPer_of_le {ackf : BitVec 8} (hackf : ackf.toNat ≤ 7) :
    (ackPer ackf).map (·.setWidth 32) =
      some (BitVec.ofNat 32 ([1, 8, 16, 32, 64, 128, 256, 512].getD ackf.toNat 0)) := by
  rw [ackPer]
  generalize ackf.toNat = n at hackf
  interval_cases n <;> rfl

theorem registerValue_eq {s : State} (hackf : s.ackf.toNat ≤ 7) (r : Nat) :
    registerValue r s = (registerNumbers s)[r]?.map (BitVec.ofNat 32) := by
  match r with
  | 0 => exact congrArg some (statusView_eq s)
  | 1 | 2 | 3 | 4 | 5 | 6 | 7 | 8 | 9 | 10 | 11 | 12 | 13 => simp [registerValue, registerNumbers]
  | 14 => exact ackPer_of_le hackf
  | _ + 15 => rfl

/-! ### The statements about the commands -/

/-- Settles O38. -/
theorem txSendsTheFrameBuffer : Obligations.TxSendsTheFrameBuffer := by
  refine ⟨decodeOfEncode .tx rfl, fun s hlen => ⟨_, exec_tx_of_le hlen, ?length, List.prefix_append _ _,
    fun i hi => ?byte, ended_finish_ok _ _, (keeps_send s _).then (keeps_finish _ _ _)⟩⟩
  case length => simp
  case byte =>
    rw [State.finish_txlog, State.send_txlog, List.getD_append_right _ _ _ _ (Nat.le_add_right _ _),
      Nat.add_sub_cancel_left, Memory.getD_readSeq _ _ _ _ hi, Nat.zero_add]

/-- Settles O39: the frame of a size within PLD fits into FRM, so FRMLEN holds its length. -/
theorem rxReceivesOneFrame : Obligations.RxReceivesOneFrame := by
  refine ⟨decodeOfEncode .rx rfl, fun s hsize => raisesOnly_of_raise (exec_rx_of_no_size hsize),
    fun s hsize hinside hall => ?whole, fun s hsize hinside hfew => ?few⟩
  case whole =>
    have hread := read_receive_frm hall
    exact ⟨_, (exec_rx_of_size hsize hinside).trans (if_pos (delivers_iff.mpr hall)),
      fun i hi => (hread i).trans (if_pos hi), fun a ha => (hread a).trans (if_neg (Nat.not_lt.mpr ha)),
      toNat_ofNat_frmlen (Nat.add_le_add_right hinside 6), rfl, ended_finish_ok _ _,
      (((keeps_receive s _).then (keeps_setFrmlen _ _)).then (keeps_finish _ _ _)).mono (by decide)⟩
  case few =>
    exact ⟨_, (exec_rx_of_size hsize hinside).trans (if_neg (mt delivers_iff.mp (Nat.not_le.mpr hfew))), rfl, rfl,
      receive_rxq_of_few hfew.le, (keeps_receive s _).then (keeps_hang _)⟩

/-- Settles O44: the numbers of the statement are those of `registerNumbers`. -/
theorem rdReadsEveryRegister : Obligations.RdReadsEveryRegister := by
  refine ⟨fun r => decodeOfEncode (.rd r) rfl, fun r s hr => ?outside, fun r s hr hackf => ?inside⟩
  case outside => exact ⟨_, exec_rd_outside hr, rfl, keeps_answer s _ _⟩
  case inside =>
    have hregister := List.getElem?_eq_getElem (l := registerNumbers s) (Nat.lt_succ_of_le hr)
    have hvalue := (registerValue_eq hackf r.toNat).trans (congrArg (Option.map (BitVec.ofNat 32)) hregister)
    exact ⟨_, _, exec_rd_of_value hr hvalue, rfl, keeps_answer s _ _, hregister⟩

/-- Settles O42. -/
theorem sessendClearsTheInstance : Obligations.SessendClearsTheInstance :=
  ⟨decodeOfEncode .sessend rfl, fun s => ⟨_, exec_sessend s, rfl, rfl, rfl, rfl, rfl, fun _ => rfl, rfl, rfl, rfl, rfl,
    rfl, fun _ => rfl, rfl, rfl, ended_finish_ok _ _, (keeps_clearInstance s).then (keeps_finish _ _ _)⟩⟩

/-! ### SESSEND beside RESET and the same LUTGEN -/

theorem Memory.read_eq_zero_of_within {w cap a : Nat} {m : Memory w} (hin : Memory.within cap m = true) (ha : cap ≤ a) :
    Memory.read m a = 0 := by
  induction m with
  | nil => rfl
  | cons c m ih =>
    simp only [Memory.within, List.all_cons, Bool.and_eq_true, decide_eq_true_eq] at hin
    obtain ⟨hc, hm⟩ := hin
    rw [Memory.read_cons, if_neg (by omega), ih hm]

/-- In a state of the invariant with a table, LUT is what LUTGEN of its polynomial writes. -/
theorem Invariant.lut_eq {s : State} (h : Invariant s) (htable : s.lutv = true) : s.lut = lutTable s.poly := by
  have hlutgen := h.setTable s.poly
  refine Memory.ext_of_wf h.lut_form.1 hlutgen.lut_form.1 fun a => ?_
  by_cases ha : a < 256
  · have hindex : (BitVec.ofNat 8 a).toNat = a := Nat.mod_eq_of_lt ha
    have hs := h.table htable (BitVec.ofNat 8 a)
    have ht := hlutgen.table rfl (BitVec.ofNat 8 a)
    rw [hindex] at hs ht
    exact hs.trans ht.symm
  · exact (Memory.read_eq_zero_of_within h.lut_form.2 (Nat.not_lt.mp ha)).trans
      (Memory.read_eq_zero_of_within hlutgen.lut_form.2 (Nat.not_lt.mp ha)).symm

/-- Settles O43: both sides write the reset values of R49, and the table is the one LUTGEN writes. -/
theorem sessendIsResetWithTheTableKept : Obligations.SessendIsResetWithTheTableKept := by
  intro s t u hinv htable hsessend hlutgen
  obtain rfl := Host.Outcome.next.inj ((exec_sessend s).symm.trans hsessend)
  obtain rfl := Host.Outcome.next.inj ((exec_lutgen_of_no_table (s := s.applyReset) rfl s.poly).symm.trans hlutgen)
  have hlut := hinv.lut_eq htable
  intro x hx
  cases x with
  | lut => exact fun a => congrArg (Memory.read · a) hlut.symm
  | lutv => exact htable.symm
  | crcacc | lastst | response | waiting => simp at hx
  | pld | frm => exact fun _ => rfl
  | _ => rfl

end Sys2Proof.Machine
end

section
/-! PROOF. HSK, each of its endings with the state it gives, in terms of the bytes to come (spec/43_framer_session.md
R179 to R184). -/

namespace Sys2Proof.Machine

/-! ### The option checks (R181) -/

/-- The four sizes, as R181 writes them. -/
theorem mem_payloadSizes_iff (psize : BitVec 16) : psize ∈ payloadSizes ↔ psize.toNat ∈ [32, 64, 128, 256] := by
  simp [payloadSizes, ← BitVec.toNat_inj]

section
variable {ackf : BitVec 8} {psize : BitVec 16}

theorem optError_of_ackf (hackf : 8 ≤ ackf.toNat) : optError ackf psize = some .optAckf :=
  if_pos hackf

theorem optError_of_psize (hackf : ackf.toNat ≤ 7) (hpsize : psize.toNat ∉ [32, 64, 128, 256]) :
    optError ackf psize = some .optPsize := by
  rw [← mem_payloadSizes_iff] at hpsize
  rw [optError, if_neg (Nat.not_lt.mpr hackf), if_neg (mt List.contains_iff_mem.mp hpsize)]

theorem optError_of_good (hackf : ackf.toNat ≤ 7) (hpsize : psize.toNat ∈ [32, 64, 128, 256]) :
    optError ackf psize = none := by
  rw [← mem_payloadSizes_iff] at hpsize
  rw [optError, if_neg (Nat.not_lt.mpr hackf), if_pos (List.contains_iff_mem.mpr hpsize)]

end

/-- Settles O15. -/
theorem optionChecksInOrder : Obligations.OptionChecksInOrder := fun _ _ =>
  ⟨fun hackf => congrArg _ (optError_of_ackf hackf), fun hackf hpsize => congrArg _ (optError_of_psize hackf hpsize),
    optError_of_good⟩

/-! ### The handshake frame in the bytes to come -/

/-- The header in the first four bytes to come (R133). -/
def handshakeHeader (s : State) : Header :=
  hdrUnpack (s.rxq.getD 0 0) (s.rxq.getD 1 0) (s.rxq.getD 2 0) (s.rxq.getD 3 0)

section
variable {s : State} (hwhole : 38 ≤ s.rxq.length)
include hwhole

theorem read_handshakeReceived_frm (a : Nat) : Memory.read (handshakeReceived s).frm a =
    if a < 38 then s.rxq.getD a 0 else Memory.read s.frm a :=
  read_receive_frm (s := s.setBufsz 32) hwhole a

theorem readSeq_handshakeReceived_frm : Memory.readSeq (handshakeReceived s).frm 0 38 = s.rxq.take 38 := by
  have hframe := Memory.readSeq_writeSeq s.frm 0 (s.rxq.take 38)
  rwa [List.length_take_of_le hwhole] at hframe

theorem frameHeader_handshakeReceived : frameHeader (handshakeReceived s) = handshakeHeader s := by
  simp [frameHeader, handshakeHeader, read_handshakeReceived_frm hwhole]

theorem handshakeCommitted_header : (handshakeCommitted s).header = handshakeHeader s :=
  frameHeader_handshakeReceived hwhole

theorem handshakeCommitted_crc16 : (handshakeCommitted s).crc16 = beU16 (s.rxq.getD 36 0) (s.rxq.getD 37 0) := by
  simp [handshakeCommitted, commitFrame, read_handshakeReceived_frm hwhole]

theorem read_handshakeCommitted_pld (a : Nat) : Memory.read (handshakeCommitted s).pld a =
    if a < 32 then s.rxq.getD (4 + a) 0 else Memory.read s.pld a := by
  have hpld : (handshakeCommitted s).pld =
      Memory.writeSeq s.pld 0 (Memory.readSeq (handshakeReceived s).frm 4 32) := rfl
  rw [hpld, Memory.read_writeSeq_zero, Memory.length_readSeq]
  split
  · next ha => rw [Memory.getD_readSeq _ _ _ _ ha, read_handshakeReceived_frm hwhole, if_pos (by omega)]
  · rfl

theorem handshakeOptions_eq : handshakeOptions s = ⟨s.rxq.getD 4 0,
    beU32 (s.rxq.getD 5 0) (s.rxq.getD 6 0) (s.rxq.getD 7 0) (s.rxq.getD 8 0),
    beU16 (s.rxq.getD 9 0) (s.rxq.getD 10 0)⟩ := by
  simp [handshakeOptions, optExtract, read_handshakeCommitted_pld hwhole]

/-! ### The two validations of the frame received (R182) -/

theorem frameError_handshake_of_residual (hcrc : crc16 s.lut (s.rxq.take 38) ≠ 0) :
    frameError 32 (handshakeReceived s) = some .integCrc := by
  rw [← readSeq_handshakeReceived_frm hwhole] at hcrc
  exact frameError_of_residual hcrc

variable (hcrc : crc16 s.lut (s.rxq.take 38) = 0)
include hcrc

theorem frameError_handshake_of_inconsistent (hck : ¬ headerConsistent (handshakeHeader s) = true) :
    frameError 32 (handshakeReceived s) = some .integHdrchk := by
  rw [← readSeq_handshakeReceived_frm hwhole] at hcrc
  rw [← frameHeader_handshakeReceived hwhole] at hck
  exact frameError_of_inconsistent hcrc hck

theorem frameError_handshake_of_good (hck : headerConsistent (handshakeHeader s) = true) :
    frameError 32 (handshakeReceived s) = none := by
  rw [← readSeq_handshakeReceived_frm hwhole] at hcrc
  rw [← frameHeader_handshakeReceived hwhole] at hck
  exact frameError_of_good hcrc hck

end

/-! ### The endings of HSK -/

theorem ended_raise (s : State) (c : Status) : Ended (s.finish c 0) c.code 0 := ⟨rfl, rfl⟩

section
variable {s : State}

theorem exec_hsk_of_no_table (htable : s.lutv = false) : exec .hsk s = raise .stateNoLut s :=
  requireTable_of_no_table _ htable

variable (htable : s.lutv = true)
include htable

theorem exec_hsk_of_session (hsess : s.sess = true) : exec .hsk s = raise .stateSession s :=
  (requireTable_of_table _ htable).trans (if_pos hsess)

variable (hfree : s.sess = false)
include hfree

/-- HSK past its two refusals: the 38 bytes, or the wait with what did arrive. -/
theorem exec_hsk_of_free : exec .hsk s =
    if s.delivers 38 then acceptHandshake (handshakeReceived s) else .next (handshakeTaken s).hang :=
  (requireTable_of_table _ htable).trans (if_neg (Bool.eq_false_iff.mp hfree))

theorem exec_hsk_of_few (hfew : s.rxq.length < 38) : exec .hsk s = .next (handshakeTaken s).hang :=
  (exec_hsk_of_free htable hfree).trans (if_neg (mt delivers_iff.mp (Nat.not_le.mpr hfew)))

variable (hwhole : 38 ≤ s.rxq.length)
include hwhole

theorem exec_hsk_of_whole : exec .hsk s = acceptHandshake (handshakeReceived s) :=
  (exec_hsk_of_free htable hfree).trans (if_pos (delivers_iff.mpr hwhole))

theorem exec_hsk_of_frameError {c : Status} (herror : frameError 32 (handshakeReceived s) = some c) :
    exec .hsk s = raise c (handshakeReceived s) := by
  rw [exec_hsk_of_whole htable hfree hwhole, acceptHandshake,
    show frameError Config.hskSize (handshakeReceived s) = some c from herror]

variable (hgood : frameError 32 (handshakeReceived s) = none)
include hgood

/-- A frame that passes both validations is committed, and its options are looked at (R182). -/
theorem exec_hsk_of_accepted : exec .hsk s = acceptOptions (handshakeCommitted s) := by
  rw [exec_hsk_of_whole htable hfree hwhole, acceptHandshake,
    show frameError Config.hskSize (handshakeReceived s) = none from hgood]
  rfl

theorem exec_hsk_of_optError {c : Status}
    (herror : optError (handshakeOptions s).ackf (handshakeOptions s).psize = some c) :
    exec .hsk s = raise c (handshakeCommitted s) := by
  rw [handshakeOptions] at herror
  simp only [exec_hsk_of_accepted htable hfree hwhole hgood, acceptOptions, herror]

theorem exec_hsk_of_started (hoptions : optError (handshakeOptions s).ackf (handshakeOptions s).psize = none) :
    exec .hsk s = .next ((handshakeStarted s).finish .ok ((handshakeOptions s).psize.setWidth 32)) := by
  rw [handshakeOptions] at hoptions
  simp only [exec_hsk_of_accepted htable hfree hwhole hgood, acceptOptions, hoptions]
  rfl

end

/-! ### What a failure of HSK leaves written (R184) -/

/-- `t` holds what step 2 of R179 writes: the size 32, the 38 bytes taken, and FRMLEN. -/
def HoldsReceived (s t : State) : Prop :=
  t.bufsz = 32 ∧ (∀ i, i < 38 → Memory.read t.frm i = s.rxq.getD i 0) ∧
    (∀ a, 38 ≤ a → Memory.read t.frm a = Memory.read s.frm a) ∧ t.frmlen = 38 ∧ t.rxq = s.rxq.drop 38

/-- `t` holds the packet that step 3 of R179 unpacks from the 38 bytes. -/
def HoldsCommitted (s t : State) : Prop :=
  t.header = handshakeHeader s ∧ t.crc16 = beU16 (s.rxq.getD 36 0) (s.rxq.getD 37 0) ∧
    (∀ i, i < 32 → Memory.read t.pld i = s.rxq.getD (4 + i) 0) ∧
    (∀ a, 32 ≤ a → Memory.read t.pld a = Memory.read s.pld a)

section
variable {s : State} (hwhole : 38 ≤ s.rxq.length)
include hwhole

theorem holdsReceived_handshakeReceived : HoldsReceived s (handshakeReceived s) :=
  ⟨rfl, fun i hi => (read_handshakeReceived_frm hwhole i).trans (if_pos hi),
    fun a ha => (read_handshakeReceived_frm hwhole a).trans (if_neg (Nat.not_lt.mpr ha)), rfl, rfl⟩

/-- The commit writes nothing of what step 2 wrote. -/
theorem holdsReceived_handshakeCommitted : HoldsReceived s (handshakeCommitted s) :=
  holdsReceived_handshakeReceived hwhole

theorem holdsCommitted_handshakeCommitted : HoldsCommitted s (handshakeCommitted s) :=
  ⟨handshakeCommitted_header hwhole, handshakeCommitted_crc16 hwhole,
    fun i hi => (read_handshakeCommitted_pld hwhole i).trans (if_pos hi),
    fun a ha => (read_handshakeCommitted_pld hwhole a).trans (if_neg (Nat.not_lt.mpr ha))⟩

end

section
variable {s : State} (htable : s.lutv = true) (hfree : s.sess = false) (hwhole : 38 ≤ s.rxq.length)
include htable hfree hwhole

/-- A failure before the commit: step 2 is done. -/
theorem hsk_fails_received {c : Status} (herror : frameError 32 (handshakeReceived s) = some c) :
    ∃ t, exec .hsk s = .next t ∧ Ended t c.code 0 ∧ HoldsReceived s t ∧
      KeepsAllBut [.bufsz, .frm, .frmlen, .rxq, .lastst, .response] s t :=
  ⟨_, exec_hsk_of_frameError htable hfree hwhole herror, ended_raise _ c, holdsReceived_handshakeReceived hwhole,
    ((keeps_handshakeReceived s).then (keeps_finish _ c 0)).mono (by decide)⟩

/-- A failure after the commit: step 3 is done too. -/
theorem hsk_fails_committed {c : Status} (hgood : frameError 32 (handshakeReceived s) = none)
    (herror : optError (handshakeOptions s).ackf (handshakeOptions s).psize = some c) :
    ∃ t, exec .hsk s = .next t ∧ Ended t c.code 0 ∧ HoldsReceived s t ∧ HoldsCommitted s t ∧
      KeepsAllBut ([.bufsz, .frm, .frmlen, .rxq, .pld, .crc16, .lastst, .response] ++ headerItems) s t :=
  ⟨_, exec_hsk_of_optError htable hfree hwhole hgood herror, ended_raise _ c, holdsReceived_handshakeCommitted hwhole,
    holdsCommitted_handshakeCommitted hwhole,
    ((keeps_handshakeCommitted s).then (keeps_finish _ c 0)).mono (by decide)⟩

end

/-- Only a wait sets the flag (R215). -/
theorem handshakeStarted_waiting (s : State) : (handshakeStarted s).waiting = s.waiting := by
  simp [handshakeStarted, handshakeCommitted, commitFrame, handshakeReceived, handshakeTaken]

/-! ### The statements about HSK -/

/-- Settles O40. -/
theorem hskStartsTheSession : Obligations.HskStartsTheSession := by
  refine ⟨decodeOfEncode .hsk rfl, fun s htable => raisesOnly_of_raise (exec_hsk_of_no_table htable),
    fun s htable hsess => raisesOnly_of_raise (exec_hsk_of_session htable hsess), fun s htable hfree hwhole => ?_⟩
  intro f h hcrc hck hackf hpsize
  have hgood := frameError_handshake_of_good hwhole hcrc ((headerConsistent_iff (handshakeHeader s)).mpr hck)
  have hoptions := handshakeOptions_eq hwhole
  have hexec := exec_hsk_of_started htable hfree hwhole hgood (by rw [hoptions]; exact optError_of_good hackf hpsize)
  obtain ⟨-, hfrm, hfrmBehind, hfrmlen, hrxq⟩ := holdsReceived_handshakeCommitted hwhole
  obtain ⟨hheader, hcrc16, hpld, hpldBehind⟩ := holdsCommitted_handshakeCommitted hwhole
  refine ⟨_, hexec, rfl, congrArg Options.ackf hoptions, congrArg Options.npkt hoptions,
    congrArg Options.psize hoptions, congrArg Options.psize hoptions, hheader, hcrc16, hpld, hpldBehind, hfrm,
    hfrmBehind, hfrmlen, hrxq, ?_, (commandsWriteOnlyTheirWriteSets _ s _ hexec).1,
    handshakeStarted_waiting s⟩
  rw [hoptions]
  exact ended_finish_ok _ _

/-- Settles O41: the validations and the option checks in their order, each with the state it finds. -/
theorem hskFailureLeavesTheStepsDone : Obligations.HskFailureLeavesTheStepsDone := by
  intro s htable hfree f h residual
  refine ⟨fun hfew => ?wait, fun hwhole => ?_⟩
  case wait =>
    exact ⟨_, exec_hsk_of_few htable hfree hfew, rfl, rfl, receive_rxq_of_few (s := s.setBufsz 32) hfew.le,
      ((keeps_handshakeTaken s).then (keeps_hang _)).mono (by decide)⟩
  have hoptions := handshakeOptions_eq hwhole
  have hconsistent := headerConsistent_iff (handshakeHeader s)
  refine ⟨fun hcrc => ?crc, fun hcrc hck => ?header, fun hcrc hck hackf => ?ackf, fun hcrc hck hackf hpsize => ?psize⟩
  case crc => exact hsk_fails_received htable hfree hwhole (frameError_handshake_of_residual hwhole hcrc)
  case header =>
    have hbad := mt hconsistent.mp hck
    exact hsk_fails_received htable hfree hwhole (frameError_handshake_of_inconsistent hwhole hcrc hbad)
  case ackf =>
    have hgood := frameError_handshake_of_good hwhole hcrc (hconsistent.mpr hck)
    exact hsk_fails_committed htable hfree hwhole hgood (by rw [hoptions]; exact optError_of_ackf hackf)
  case psize =>
    have hgood := frameError_handshake_of_good hwhole hcrc (hconsistent.mpr hck)
    exact hsk_fails_committed htable hfree hwhole hgood (by rw [hoptions]; exact optError_of_psize hackf hpsize)

end Sys2Proof.Machine
end

section
/-! PROOF. The session: which commands change it, and that no command but HSK depends on it (spec/43_framer_session.md
R188, spec/10_state.md R43). -/

namespace Sys2Proof.Machine

/-! ### Which commands change the session -/

theorem sess_mem_written_iff (i : Instr) : .sess ∈ writeSet i ++ endingSet i ↔ i = .hsk ∨ i = .sessend := by
  cases i <;> simp [writeSet, endingSet, endingItems, headerItems]

section
variable {s t : State}

theorem sess_eq_of_exec {i : Instr} (hhsk : i ≠ .hsk) (hsessend : i ≠ .sessend) (hexec : exec i s = .next t) :
    t.sess = s.sess :=
  (exec_withinWriteSet hexec).1 .sess fun hwritten => ((sess_mem_written_iff i).mp hwritten).elim hhsk hsessend

theorem sess_of_sessend (hexec : exec .sessend s = .next t) : t.sess = false := by
  obtain rfl := Host.Outcome.next.inj ((exec_sessend s).symm.trans hexec)
  rfl

theorem handshakeCommitted_sess (s : State) : (handshakeCommitted s).sess = s.sess :=
  keeps_handshakeCommitted s .sess (by decide)

/-- HSK leaves the session as it is, or it ends with OK in a session. -/
theorem sess_of_hsk (hexec : exec .hsk s = .next t) :
    t.sess = s.sess ∨ (t.sess = true ∧ ∃ v, Ended t 0x00 v) := by
  rcases execHsk_next hexec with ⟨c, -, rfl⟩ | ⟨-, -, ⟨-, rfl⟩ | ⟨-, ⟨c, -, rfl⟩ | ⟨c, -, rfl⟩ | ⟨-, rfl⟩⟩⟩
  · exact .inl rfl
  · exact .inl rfl
  · exact .inl rfl
  · exact .inl (handshakeCommitted_sess s)
  · exact .inr ⟨rfl, _, ended_finish_ok _ _⟩

/-- In a session HSK is refused before any byte is taken (R179). -/
theorem hsk_in_session (hsess : s.sess = true) (hexec : exec .hsk s = .next t) : t.sess = true ∧ t.rxq = s.rxq := by
  rcases execHsk_next hexec with ⟨c, -, rfl⟩ | ⟨-, hfree, -⟩
  · exact ⟨hsess, rfl⟩
  · simp [hfree] at hsess

end

/-- Settles O55: the session is written by HSK and by SESSEND alone. -/
theorem sessionChangesOnlyByHskAndSessend : Obligations.SessionChangesOnlyByHskAndSessend := by
  intro i s t hexec
  by_cases hhsk : i = .hsk
  · subst hhsk
    refine ⟨fun hfree hsess => ?starts, fun hsess hfree => ?ends, fun _ hsess => hsk_in_session hsess hexec⟩
    case starts =>
      rcases sess_of_hsk hexec with hsame | ⟨-, v, hresponse, hlast⟩
      · simp [hfree, hsess] at hsame
      · exact ⟨rfl, hlast, by simp [hresponse]⟩
    case ends => simp [(hsk_in_session hsess hexec).1] at hfree
  by_cases hsessend : i = .sessend
  · subst hsessend
    exact ⟨fun _ hsess => by simp [sess_of_sessend hexec] at hsess, fun _ _ => rfl, nofun⟩
  · have hsame := sess_eq_of_exec hhsk hsessend hexec
    exact ⟨fun hfree hsess => by simp [hfree, hsess] at hsame, fun hsess hfree => by simp [hfree, hsess] at hsame,
      fun hi => absurd hi hhsk⟩

/-! ### No command but HSK depends on the session -/

/-- The state with SESS as given. -/
def State.withSess (s : State) (b : Bool) : State := { s with sess := b }

section
variable (b : Bool) (s : State)

theorem execLutgen_withSess (poly : BitVec 16) :
    execLutgen poly (s.withSess b) = mapNext (·.withSess b) (execLutgen poly s) := by
  rw [execLutgen, execLutgen, apply_ite (mapNext _)]
  rfl

theorem execCrcb_withSess (d : BitVec 8) : execCrcb d (s.withSess b) = mapNext (·.withSess b) (execCrcb d s) := by
  rw [execCrcb, execCrcb, mapNext_requireTable rfl rfl]
  rfl

theorem execLutrd_withSess (idx : BitVec 8) :
    execLutrd idx (s.withSess b) = mapNext (·.withSess b) (execLutrd idx s) := by
  rw [execLutrd, execLutrd, mapNext_requireTable rfl rfl]
  rfl

theorem execHdrchk_withSess : execHdrchk (s.withSess b) = mapNext (·.withSess b) (execHdrchk s) := by
  rw [execHdrchk, execHdrchk, apply_ite (mapNext _)]
  rfl

theorem execPldclr_withSess : execPldclr (s.withSess b) = mapNext (·.withSess b) (execPldclr s) := by
  rw [execPldclr, execPldclr, mapNext_requireSize rfl rfl, mapNext_accessPld]
  rfl

theorem execPldw_withSess (idx d : BitVec 8) :
    execPldw idx d (s.withSess b) = mapNext (·.withSess b) (execPldw idx d s) := by
  rw [execPldw, execPldw, mapNext_requireSize rfl rfl, apply_ite (mapNext _)]
  rfl

theorem execSer_withSess (cap : BitVec 16) :
    execSer cap (s.withSess b) = mapNext (·.withSess b) (execSer cap s) := by
  rw [execSer, execSer, mapNext_requireTable rfl rfl, mapNext_requireSize rfl rfl, apply_ite (mapNext _),
    mapNext_accessPld, mapNext_accessFrm]
  rfl

theorem execDes_withSess : execDes (s.withSess b) = mapNext (·.withSess b) (execDes s) := by
  rw [execDes, execDes, mapNext_requireTable rfl rfl, mapNext_requireSize rfl rfl, apply_ite (mapNext _),
    mapNext_accessPld, mapNext_accessFrm]
  rw [show frameError (s.withSess b).bufsz.toNat (s.withSess b) = frameError s.bufsz.toNat s from rfl]
  cases frameError s.bufsz.toNat s <;> rfl

theorem execFrmb_withSess (d : BitVec 8) : execFrmb d (s.withSess b) = mapNext (·.withSess b) (execFrmb d s) := by
  rw [execFrmb, execFrmb, apply_ite (mapNext _), mapNext_accessFrm]
  rfl

theorem execFrmrd_withSess (idx : BitVec 16) :
    execFrmrd idx (s.withSess b) = mapNext (·.withSess b) (execFrmrd idx s) := by
  rw [execFrmrd, execFrmrd, apply_ite (mapNext _)]
  rfl

theorem execTx_withSess : execTx (s.withSess b) = mapNext (·.withSess b) (execTx s) := by
  rw [execTx, execTx, mapNext_accessFrm]
  rfl

theorem execRx_withSess : execRx (s.withSess b) = mapNext (·.withSess b) (execRx s) := by
  rw [execRx, execRx, mapNext_requireSize rfl rfl, mapNext_accessFrm, apply_ite (mapNext _)]
  rfl

/-- STATUS, register 0, is the one register that shows SESS (R45). -/
theorem registerValue_withSess {r : Nat} (hr : r ≠ 0) : registerValue r (s.withSess b) = registerValue r s := by
  match r, hr with
  | 1, _ | 2, _ | 3, _ | 4, _ | 5, _ | 6, _ | 7, _ | 8, _ | 9, _ | 10, _ | 11, _ | 12, _ | 13, _ | 14, _ => rfl
  | _ + 15, _ => rfl

theorem execRd_withSess {r : BitVec 8} (hr : r ≠ 0) :
    execRd r (s.withSess b) = mapNext (·.withSess b) (execRd r s) := by
  have hnumber : r.toNat ≠ 0 := fun hzero => hr (BitVec.eq_of_toNat_eq hzero)
  rw [execRd, execRd, apply_ite (mapNext _), registerValue_withSess b s hnumber]
  cases registerValue r.toNat s <;> rfl

/-- Every command but HSK, SESSEND and the RD of STATUS goes alike in both session states. -/
theorem exec_withSess {i : Instr} (hhsk : i ≠ .hsk) (hsessend : i ≠ .sessend) (hrd : i ≠ .rd 0) :
    exec i (s.withSess b) = mapNext (·.withSess b) (exec i s) := by
  cases i with
  | hsk => exact absurd rfl hhsk
  | sessend => exact absurd rfl hsessend
  | rd r => exact execRd_withSess b s fun hzero => hrd (congrArg Instr.rd hzero)
  | lutgen poly => exact execLutgen_withSess b s poly
  | crcb d => exact execCrcb_withSess b s d
  | lutrd idx => exact execLutrd_withSess b s idx
  | hdrchk => exact execHdrchk_withSess b s
  | pldclr => exact execPldclr_withSess b s
  | pldw idx d => exact execPldw_withSess b s idx d
  | ser cap => exact execSer_withSess b s cap
  | des => exact execDes_withSess b s
  | frmb d => exact execFrmb_withSess b s d
  | frmrd idx => exact execFrmrd_withSess b s idx
  | tx => exact execTx_withSess b s
  | rx => exact execRx_withSess b s
  | crcinit | hdrmk | hdrpk | setsz | pldrd | frmclr => rfl
  | wirehdrConnect | wirehdrDisconnect | wirehdrData | wirehdrError => rfl

end

/-- Settles O56. -/
theorem onlyHskDependsOnTheSession : Obligations.OnlyHskDependsOnTheSession := by
  intro i b s hhsk hsessend hrd
  have halike := exec_withSess b s hhsk hsessend hrd
  exact ⟨fun t ht => halike.trans (congrArg (mapNext _) ht), fun e he => halike.trans (congrArg (mapNext _) he)⟩

end Sys2Proof.Machine
end

section
/-! PROOF. Exceptions and the wait (spec/60_exceptions.md R200, R203, R211, R215, R216): nothing stops a machine that
holds R50, every command ends with OK or a code of its row, and a wait lasts until RESET. -/

namespace Sys2Proof.Machine

/-! ### Outcomes that go on -/

section
variable {s : State} {r : Result}

theorem goesOn_next (t : State) : GoesOn (.next t) := ⟨t, rfl⟩

theorem goesOn_raise (c : Status) (s : State) : GoesOn (raise c s) := goesOn_next _

theorem goesOn_respond (v : BitVec 32) (s : State) : GoesOn (respond v s) := goesOn_next _

theorem goesOn_ite {p : Prop} [Decidable p] {r r' : Result} (hpos : p → GoesOn r) (hneg : ¬ p → GoesOn r') :
    GoesOn (if p then r else r') := by
  split
  · next hp => exact hpos hp
  · next hp => exact hneg hp

theorem goesOn_requireTable (h : s.lutv = true → GoesOn r) : GoesOn (requireTable s r) :=
  goesOn_ite h fun _ => goesOn_raise _ _

theorem goesOn_requireSize (h : s.bufsz ≠ 0 → GoesOn r) : GoesOn (requireSize s r) :=
  goesOn_ite (fun _ => goesOn_raise _ _) h

theorem goesOn_accessPld {n : Nat} (hn : n ≤ 256) (h : GoesOn r) : GoesOn (accessPld n r) :=
  (accessPld_of_le r hn).symm ▸ h

theorem goesOn_accessFrm {n : Nat} (hn : n ≤ 262) (h : GoesOn r) : GoesOn (accessFrm n r) :=
  (accessFrm_of_le r hn).symm ▸ h

end

/-! ### No command stops a machine that holds R50 (R216) -/

/-- The frame bytes that HSK received are accepted or refused, whatever they are. -/
theorem acceptHandshake_goesOn (s : State) : GoesOn (acceptHandshake s) := by
  rcases acceptHandshake_cases s with ⟨c, -, he⟩ | ⟨c, -, -, he⟩ | ⟨-, -, he⟩
  · exact he ▸ goesOn_raise _ _
  · exact he ▸ goesOn_raise _ _
  · exact he ▸ goesOn_respond _ _

/-- HSK asks for the fixed 38 bytes of FRM, so it needs no invariant. -/
theorem execHsk_goesOn (s : State) : GoesOn (execHsk s) :=
  goesOn_requireTable fun _ => goesOn_ite (fun _ => goesOn_raise _ _) fun _ =>
    goesOn_ite (fun _ => acceptHandshake_goesOn _) fun _ => goesOn_next _

section
variable {s : State} (h : Invariant s)
include h

theorem Invariant.setEnv (rxq txlog : List (BitVec 8)) : Invariant (s.setEnv rxq txlog) := { h with }

/-- The sizes of R50 lie within PLD. -/
theorem Invariant.bufsz_le : s.bufsz.toNat ≤ 256 := by
  have hlegal : ∀ v ∈ ([0, 32, 64, 128, 256] : List (BitVec 16)), v.toNat ≤ 256 := by simp
  exact hlegal _ h.bufsz_legal

/-- The frame of a size of R50 lies within FRM. -/
theorem Invariant.frameLen_le : frameLen s.bufsz.toNat ≤ 262 := by
  rw [frameLen_eq]
  exact Nat.add_le_add_right h.bufsz_le 6

theorem execPldclr_goesOn : GoesOn (execPldclr s) :=
  goesOn_requireSize fun _ => goesOn_accessPld h.bufsz_le (goesOn_respond _ _)

theorem execSer_goesOn (cap : BitVec 16) : GoesOn (execSer cap s) :=
  goesOn_requireTable fun _ => goesOn_requireSize fun _ => goesOn_ite (fun _ => goesOn_raise _ _) fun _ =>
    goesOn_accessPld h.bufsz_le (goesOn_accessFrm h.frameLen_le (goesOn_respond _ _))

theorem execDes_goesOn : GoesOn (execDes s) := by
  refine goesOn_requireTable fun _ => goesOn_requireSize fun _ => goesOn_ite (fun _ => goesOn_raise _ _) fun _ =>
    goesOn_accessPld h.bufsz_le (goesOn_accessFrm h.frameLen_le ?_)
  cases frameError s.bufsz.toNat s with
  | some c => exact goesOn_raise _ _
  | none => exact goesOn_respond _ _

/-- A FRM that is not full has room for one byte more (R164). -/
theorem execFrmb_goesOn (b : BitVec 8) : GoesOn (execFrmb b s) :=
  goesOn_ite (fun _ => goesOn_raise _ _) fun hroom =>
    goesOn_accessFrm (Nat.lt_of_le_of_ne h.frmlen_le hroom) (goesOn_respond _ _)

theorem execTx_goesOn : GoesOn (execTx s) := goesOn_accessFrm h.frmlen_le (goesOn_respond _ _)

theorem execRx_goesOn : GoesOn (execRx s) :=
  goesOn_requireSize fun _ => goesOn_accessFrm h.frameLen_le
    (goesOn_ite (fun _ => goesOn_respond _ _) fun _ => goesOn_next _)

/-- With an ACKF of R50 every register below 15 has a value, ACKPER too. -/
theorem execRd_goesOn (r : BitVec 8) : GoesOn (execRd r s) := by
  refine goesOn_ite (fun _ => goesOn_next _) fun hr => ?_
  have hnumber : r.toNat < (registerNumbers s).length := Nat.not_le.mp hr
  rw [registerValue_eq h.ackf_le, List.getElem?_eq_getElem hnumber]
  exact goesOn_next _

theorem exec_goesOn (i : Instr) : GoesOn (exec i s) := by
  cases i with
  | pldclr => exact execPldclr_goesOn h
  | ser cap => exact execSer_goesOn h cap
  | des => exact execDes_goesOn h
  | frmb b => exact execFrmb_goesOn h b
  | tx => exact execTx_goesOn h
  | rx => exact execRx_goesOn h
  | hsk => exact execHsk_goesOn s
  | rd r => exact execRd_goesOn h r
  | crcb | lutrd => exact goesOn_requireTable fun _ => goesOn_respond _ _
  | pldw => exact goesOn_requireSize fun _ => goesOn_ite (fun _ => goesOn_raise _ _) fun _ => goesOn_respond _ _
  | lutgen | frmrd => exact goesOn_ite (fun _ => goesOn_raise _ _) fun _ => goesOn_respond _ _
  | hdrchk => exact goesOn_ite (fun _ => goesOn_respond _ _) fun _ => goesOn_raise _ _
  | crcinit | hdrmk | hdrpk | setsz | pldrd | frmclr | sessend => exact goesOn_respond _ _
  | wirehdrConnect | wirehdrDisconnect | wirehdrData | wirehdrError => exact goesOn_raise _ _

/-- RESET during a command: the command runs on fewer bytes to come, of which the invariant says nothing. -/
theorem abandon_goesOn (i : Instr) (k : Nat) : GoesOn (abandon i k s) := by
  obtain ⟨t, ht⟩ := exec_goesOn (h.setEnv (s.rxq.take k) s.txlog) i
  rw [abandon, ht]
  exact goesOn_next _

end

/-- Settles O51: of what a step can do, only a command, to its end or with RESET during it, could stop. -/
theorem nothingStopsTheMachine : Obligations.NothingStopsTheMachine := by
  intro s h
  rcases step_cases (s := s) rfl with ⟨he, -⟩ | ⟨rest, -, he⟩ | ⟨cw, rest, i, -, -, -, he⟩ |
    ⟨cw, rest, e, -, -, -, he⟩ | ⟨cw, k, rest, i, -, -, -, he⟩ | ⟨cw, k, rest, e, -, -, -, he⟩ <;> rw [he]
  · exact goesOn_next _
  · exact goesOn_next _
  · exact exec_goesOn (h.setInbox rest) i
  · exact goesOn_raise _ _
  · exact abandon_goesOn (h.setInbox rest) i k
  · exact goesOn_next _

/-! ### A wait lasts until RESET (R215) -/

/-- A waiting block takes up nothing but RESET (R178, R230). -/
theorem step_of_waiting {s : State} (hwaiting : s.waiting = true) (hreset : ∀ rest, s.inbox ≠ .reset :: rest)
    (hduring : ∀ cw k rest, s.inbox ≠ .resetDuring cw k :: rest) : step s = .next s := by
  rcases fetch_cases s with ⟨hfetch, -⟩ | ⟨rest, hin | ⟨-, cw, k, hin⟩, -⟩ | ⟨cw, rest, -, hready, -⟩ |
    ⟨cw, k, rest, hin, -, -⟩
  · rw [step, hfetch]
  · exact absurd hin (hreset rest)
  · exact absurd hin (hduring cw k rest)
  · exact absurd hwaiting (Bool.eq_false_iff.mp hready)
  · exact absurd hin (hduring cw k rest)

/-- A state that a step leaves as it is stays for any number of steps. -/
theorem run_of_step_self {M : Host.Core} {s : M.State} (hstep : M.step s = .next s) (k : Nat) :
    M.run k s = .next s := by
  induction k with
  | zero => rfl
  | succ k ih =>
    rw [Host.Core.run, hstep]
    exact ih

/-- Settles O48: the state is a fixed point of the step. -/
theorem waitingBlockNeverGoesOn : Obligations.WaitingBlockNeverGoesOn :=
  fun _ k hwaiting hreset hduring => run_of_step_self (M := Sys2Proof.core) (step_of_waiting hwaiting hreset hduring) k

/-! ### The codes that a command ends with (R211) -/

/-- A response with OK, or with a code of the row of `i` and value 0; LASTST holds the code unless `i` is RD. -/
def EndsByItsRow (i : Instr) (t : State) : Prop :=
  ∃ r, t.response = some r ∧ (r.st = 0x00 ∨ r.st ∈ errorCodes i) ∧ (r.st ≠ 0x00 → r.val = 0) ∧
    ((∀ n, i ≠ .rd n) → t.lastst = r.st)

/-- RX or HSK waits for bytes that never come (R215). -/
def WaitsForBytes (i : Instr) (t : State) : Prop := t.response = none ∧ t.waiting = true ∧ (i = .rx ∨ i = .hsk)

section
variable {i : Instr} {s t : State}

/-- OK is no error, so the value is free; LASTST holds OK (R200, R203). -/
theorem endsByItsRow_of_ok {v : BitVec 32} (hok : t = s.finish .ok v) : EndsByItsRow i t := by
  subst hok
  exact ⟨_, rfl, .inl rfl, fun hne => absurd rfl hne, fun _ => rfl⟩

/-- A command that errs for causes of its row: the value is 0 and LASTST holds the code (R200, R203). -/
theorem endsByItsRow_of_errsWith {causes : List Status} (hrow : causes.map Status.code ⊆ errorCodes i)
    (herr : ErrsWith causes s t) : EndsByItsRow i t := by
  obtain ⟨c, hc, rfl⟩ := herr
  exact ⟨_, rfl, .inr (hrow (List.mem_map_of_mem hc)), fun _ => rfl, fun _ => rfl⟩

theorem waitsForBytes_hang (hi : i = .rx ∨ i = .hsk) : WaitsForBytes i s.hang := ⟨rfl, rfl, hi⟩

theorem execRx_ends (h : execRx s = .next t) : WaitsForBytes .rx t ∨ EndsByItsRow .rx t := by
  rcases execRx_next h with herr | ⟨-, -, rfl⟩ | ⟨-, -, rfl⟩
  · exact .inr (endsByItsRow_of_errsWith (.refl _) herr)
  · exact .inr (endsByItsRow_of_ok rfl)
  · exact .inl (waitsForBytes_hang (.inl rfl))

theorem execHsk_ends (h : execHsk s = .next t) : WaitsForBytes .hsk t ∨ EndsByItsRow .hsk t := by
  rcases execHsk_next h with herr | ⟨-, -, ⟨-, rfl⟩ | ⟨-, herr | herr | ⟨-, rfl⟩⟩⟩
  · exact .inr (endsByItsRow_of_errsWith (by decide) herr)
  · exact .inl (waitsForBytes_hang (.inr rfl))
  · exact .inr (endsByItsRow_of_errsWith (by decide) herr)
  · exact .inr (endsByItsRow_of_errsWith (by decide) herr)
  · exact .inr (endsByItsRow_of_ok rfl)

/-- RD ends with the index error or with OK, and the clause on LASTST does not ask it for anything (R187). -/
theorem execRd_ends {r : BitVec 8} (h : execRd r s = .next t) : EndsByItsRow (.rd r) t := by
  rcases execRd_next h with ⟨-, rfl⟩ | ⟨-, v, -, rfl⟩
  · exact ⟨_, rfl, .inr (List.mem_singleton_self _), fun _ => rfl, fun hrd => absurd rfl (hrd r)⟩
  · exact ⟨_, rfl, .inl rfl, fun hne => absurd rfl hne, fun hrd => absurd rfl (hrd r)⟩

/-- Every command but the two that may wait. -/
theorem exec_endsByItsRow (hrx : i ≠ .rx) (hhsk : i ≠ .hsk) (h : exec i s = .next t) : EndsByItsRow i t := by
  cases i with
  | rx => exact absurd rfl hrx
  | hsk => exact absurd rfl hhsk
  | lutgen poly =>
    exact (execLutgen_next h).elim (endsByItsRow_of_errsWith (.refl _)) fun ⟨_, he⟩ => endsByItsRow_of_ok he
  | crcb b =>
    exact (execCrcb_next h).elim (endsByItsRow_of_errsWith (.refl _)) fun ⟨_, he⟩ => endsByItsRow_of_ok he
  | lutrd idx =>
    exact (execLutrd_next h).elim (endsByItsRow_of_errsWith (.refl _)) fun ⟨_, he⟩ => endsByItsRow_of_ok he
  | hdrchk =>
    exact (execHdrchk_next h).elim (endsByItsRow_of_errsWith (.refl _)) fun ⟨_, he⟩ => endsByItsRow_of_ok he
  | pldclr =>
    exact (execPldclr_next h).elim (endsByItsRow_of_errsWith (.refl _)) fun ⟨_, he⟩ => endsByItsRow_of_ok he
  | pldw idx b =>
    exact (execPldw_next h).elim (endsByItsRow_of_errsWith (.refl _)) fun ⟨_, he⟩ => endsByItsRow_of_ok he
  | ser cap =>
    exact (execSer_next h).elim (endsByItsRow_of_errsWith (.refl _)) fun ⟨_, _, _, he⟩ => endsByItsRow_of_ok he
  | des =>
    exact (execDes_next h).elim (endsByItsRow_of_errsWith (.refl _)) fun ⟨_, _, _, _, he⟩ => endsByItsRow_of_ok he
  | frmb b =>
    exact (execFrmb_next h).elim (endsByItsRow_of_errsWith (.refl _)) fun ⟨_, he⟩ => endsByItsRow_of_ok he
  | frmrd idx =>
    exact (execFrmrd_next h).elim (endsByItsRow_of_errsWith (.refl _)) fun ⟨_, he⟩ => endsByItsRow_of_ok he
  | tx => exact endsByItsRow_of_ok (execTx_next h).2
  | rd r => exact execRd_ends h
  | crcinit | hdrmk | hdrpk | setsz | pldrd | frmclr | sessend => exact endsByItsRow_of_ok (respond_next.mp h)
  | wirehdrConnect | wirehdrDisconnect | wirehdrData | wirehdrError =>
    exact endsByItsRow_of_errsWith (.refl _) (illegalWord_next h)

end

/-- Settles O54: RX and HSK may wait, every other command ends. -/
theorem commandsEndWithTheirCodes : Obligations.CommandsEndWithTheirCodes := by
  intro i s t h
  by_cases hrx : i = .rx
  · subst hrx
    exact execRx_ends h
  by_cases hhsk : i = .hsk
  · subst hhsk
    exact execHsk_ends h
  · exact .inr (exec_endsByItsRow hrx hhsk h)

end Sys2Proof.Machine
end

section
/-! PROOF. RESET, between commands, during a wait and during a command (spec/70_reset_and_hazards.md R230, R232): the
block is as after reset, and the transport keeps what the command moved by then. -/

namespace Sys2Proof.Machine

/-! ### The block after RESET -/

/-- RESET keeps the environment and the host's script, and of the block nothing (R52, R70). -/
theorem keeps_applyReset (s : State) : KeepsAllBut [.rxq, .txlog, .inbox] State.reset s.applyReset := by
  intro x hx
  cases x with
  | rxq | txlog | inbox => simp at hx
  | lut | pld | frm => exact fun _ => rfl
  | _ => rfl

section
variable {s : State} {cw : BitVec 32} {k : Nat} {rest : List HostEvent}

theorem step_reset (hinbox : s.inbox = .reset :: rest) : step s = .next (s.setInbox rest).applyReset := by
  simp only [step, fetch, hinbox]

/-- To a block that waits no word is presented, so of the event the RESET is left (R178, R230). -/
theorem step_resetDuring_of_waiting (hinbox : s.inbox = .resetDuring cw k :: rest) (hwaiting : s.waiting = true) :
    step s = .next (s.setInbox rest).applyReset := by
  simp only [step, fetch, hinbox, hwaiting, if_true]

theorem step_resetDuring_of_ready (hinbox : s.inbox = .resetDuring cw k :: rest) (hready : s.waiting = false) :
    step s = presentAndReset cw k (s.setInbox rest) := by
  simp only [step, fetch, hinbox, hready, Bool.false_eq_true, if_false]

end

/-- Settles O47. -/
theorem resetEventFromEveryState : Obligations.ResetEventFromEveryState := fun s rest hinbox =>
  ⟨_, step_reset hinbox, rfl, rfl, rfl, rfl, rfl, (keeps_applyReset (s.setInbox rest)).mono (by decide)⟩

/-! ### What a command moves over the transport -/

/-- The number of bytes that a command sends (R176). -/
def bytesSent (i : Instr) (s : State) : Nat := if i = .tx then s.frmlen.toNat else 0

/-- The number of bytes that a command takes when they all come: a frame of the size in force for RX, one of 38 bytes
for HSK, each if its checks let it take any (R177, R179). -/
def bytesTaken (i : Instr) (s : State) : Nat :=
  if i = .rx ∧ s.bufsz ≠ 0 then s.bufsz.toNat + 6
  else if i = .hsk ∧ s.lutv = true ∧ s.sess = false then 38
  else 0

theorem txlog_mem_written_iff (i : Instr) : .txlog ∈ writeSet i ++ endingSet i ↔ i = .tx := by
  cases i <;> simp [writeSet, endingSet, endingItems, headerItems]

theorem rxq_mem_written_iff (i : Instr) : .rxq ∈ writeSet i ++ endingSet i ↔ i = .rx ∨ i = .hsk := by
  cases i <;> simp [writeSet, endingSet, endingItems, headerItems]

theorem inbox_not_mem_written (i : Instr) : .inbox ∉ writeSet i ++ endingSet i := by
  cases i <;> simp [writeSet, endingSet, endingItems, headerItems]

section
variable {i : Instr} {s t : State}

theorem inbox_eq_of_exec (hexec : exec i s = .next t) : t.inbox = s.inbox :=
  (exec_withinWriteSet hexec).1 .inbox (inbox_not_mem_written i)

theorem txlog_eq_of_exec (hexec : exec i s = .next t) :
    t.txlog = s.txlog ++ Memory.readSeq s.frm 0 (bytesSent i s) := by
  by_cases htx : i = .tx
  · subst htx
    obtain ⟨-, rfl⟩ := execTx_next hexec
    rfl
  · rw [bytesSent, if_neg htx, Memory.readSeq, List.append_nil]
    exact (exec_withinWriteSet hexec).1 .txlog (mt (txlog_mem_written_iff i).mp htx)

theorem rxq_eq_of_rx (hinside : s.bufsz.toNat ≤ 256) (hexec : exec .rx s = .next t) :
    t.rxq = s.rxq.drop (bytesTaken .rx s) := by
  by_cases hsize : s.bufsz = 0
  · rw [exec_rx_of_no_size hsize, raise_next] at hexec
    simp [bytesTaken, hsize, hexec]
  · rw [exec_rx_of_size hsize hinside] at hexec
    have htaken : bytesTaken .rx s = s.bufsz.toNat + 6 := if_pos ⟨rfl, hsize⟩
    rw [htaken]
    split at hexec <;> exact Host.Outcome.next.inj hexec ▸ rfl

/-- Once the 38 bytes are received HSK takes no more. -/
theorem rxq_eq_of_acceptHandshake (haccept : acceptHandshake s = .next t) : t.rxq = s.rxq := by
  rcases acceptHandshake_cases s with ⟨c, -, he⟩ | ⟨c, -, -, he⟩ | ⟨-, -, he⟩
  · rw [raise_next.mp (he.symm.trans haccept)]
    rfl
  · rw [raise_next.mp (he.symm.trans haccept)]
    rfl
  · rw [respond_next.mp (he.symm.trans haccept)]
    rfl

theorem rxq_eq_of_hsk (hexec : exec .hsk s = .next t) : t.rxq = s.rxq.drop (bytesTaken .hsk s) := by
  cases htable : s.lutv with
  | false =>
    rw [exec_hsk_of_no_table htable, raise_next] at hexec
    simp [bytesTaken, htable, hexec]
  | true =>
    cases hsess : s.sess with
    | true => simp [bytesTaken, hsess, (hsk_in_session hsess hexec).2]
    | false =>
      rw [exec_hsk_of_free htable hsess] at hexec
      have htaken : bytesTaken .hsk s = 38 := by simp [bytesTaken, htable, hsess]
      rw [htaken]
      split at hexec
      · exact rxq_eq_of_acceptHandshake hexec
      · exact Host.Outcome.next.inj hexec ▸ rfl

theorem rxq_eq_of_exec (hinside : s.bufsz.toNat ≤ 256) (hexec : exec i s = .next t) :
    t.rxq = s.rxq.drop (bytesTaken i s) := by
  by_cases hrx : i = .rx
  · subst hrx
    exact rxq_eq_of_rx hinside hexec
  by_cases hhsk : i = .hsk
  · subst hhsk
    exact rxq_eq_of_hsk hexec
  · have hunwritten := mt (rxq_mem_written_iff i).mp (not_or.mpr ⟨hrx, hhsk⟩)
    have hkept : t.rxq = s.rxq := (exec_withinWriteSet hexec).1 .rxq hunwritten
    simpa [bytesTaken, hrx, hhsk] using hkept

end

/-! ### RESET after `k` bytes -/

theorem Memory.take_readSeq {w : Nat} (m : Memory w) (a k n : Nat) :
    (Memory.readSeq m a n).take k = Memory.readSeq m a (min k n) := by
  simp only [Memory.readSeq_eq_map, ← List.map_take, List.take_range]

/-- Of the first `k` bytes to come the first `n` are taken: the rest of them, and what is behind them, still comes. -/
theorem drop_take_append_behind {α : Type} (l : List α) (k n : Nat) :
    (l.take k).drop n ++ l.drop k = l.drop (min k n) := by
  rcases Nat.le_total n k with hle | hle
  · obtain ⟨j, rfl⟩ := Nat.exists_eq_add_of_le hle
    rw [List.drop_take, Nat.add_sub_cancel_left, List.drop_take_append_drop, Nat.min_eq_right hle]
  · rw [List.drop_eq_nil_of_le ((List.length_take_le k l).trans hle), List.nil_append, Nat.min_eq_left hle]

section
variable {s : State} (h : Invariant s)
include h

/-- A command with RESET during it: the first bytes of those it sends are sent, and the first of those it takes are
gone (R232). -/
theorem abandon_moves (i : Instr) (k : Nat) : ∃ u : State, abandon i k s = .next u.applyReset ∧ u.inbox = s.inbox ∧
    u.txlog = s.txlog ++ Memory.readSeq s.frm 0 (min k (bytesSent i s)) ∧
    u.rxq = s.rxq.drop (min k (bytesTaken i s)) := by
  have hcut := h.setEnv (s.rxq.take k) s.txlog
  obtain ⟨t, hexec⟩ := exec_goesOn hcut i
  have hscript := inbox_eq_of_exec hexec
  have htxlog := txlog_eq_of_exec hexec
  have hrxq := rxq_eq_of_exec hcut.bufsz_le hexec
  refine ⟨t.setEnv (t.rxq ++ s.rxq.drop k) (t.txlog.take (s.txlog.length + k)), ?_, hscript, ?_, ?_⟩
  · rw [abandon, hexec]
  · rw [State.setEnv_txlog, htxlog, State.setEnv_txlog, List.take_length_add_append, Memory.take_readSeq]
    rfl
  · rw [State.setEnv_rxq, hrxq]
    exact drop_take_append_behind s.rxq k _

theorem step_resetDuring_moves {cw : BitVec 32} {k : Nat} {rest : List HostEvent} {i : Instr}
    (hinbox : s.inbox = .resetDuring cw k :: rest) (hready : s.waiting = false) (hdecode : decode cw = .ok i) :
    ∃ u : State, step s = .next u.applyReset ∧ u.inbox = rest ∧
      u.txlog = s.txlog ++ Memory.readSeq s.frm 0 (min k (bytesSent i s)) ∧
      u.rxq = s.rxq.drop (min k (bytesTaken i s)) := by
  rw [step_resetDuring_of_ready hinbox hready, presentAndReset, hdecode]
  exact abandon_moves (h.setInbox rest) i k

end

/-! ### The word that was presented -/

/-- A word that decodes is the encoding of what it decodes to, and of no other instruction. -/
theorem eq_encode_iff {cw : BitVec 32} {i j : Instr} (hdecode : decode cw = .ok i) (hj : j.wellFormed = true) :
    cw = encode j ↔ i = j := by
  constructor
  · rintro rfl
    exact Except.ok.inj (hdecode.symm.trans (decodeOfEncode j hj))
  · rintro rfl
    exact (encodeOfDecode cw i hdecode).1.symm

theorem ne_encode_of_error {cw : BitVec 32} {e : DecodeError} (hdecode : decode cw = .error e) {j : Instr}
    (hj : j.wellFormed = true) : cw ≠ encode j := by
  rintro rfl
  cases hdecode.symm.trans (decodeOfEncode j hj)

/-- Settles O59: to a waiting block the event is a RESET alone; a word that decodes moves what its command moves, and a
word that is not performed moves nothing. -/
theorem resetDuringACommand : Obligations.ResetDuringACommand := by
  intro s cw k rest h hinbox
  have hkeeps (u : State) : KeepsAllBut [.lut, .rxq, .txlog, .inbox, .response, .waiting] State.reset u.applyReset :=
    (keeps_applyReset u).mono (by decide)
  cases hwaiting : s.waiting with
  | true =>
    have hnone := (List.append_nil s.txlog).symm
    exact ⟨_, step_resetDuring_of_waiting hinbox hwaiting, rfl, rfl, rfl, hkeeps _, hnone, rfl⟩
  | false =>
    simp only [true_and]
    cases hdecode : decode cw with
    | ok i =>
      obtain ⟨u, hstep, hscript, htxlog, hrxq⟩ := step_resetDuring_moves h hinbox hwaiting hdecode
      have htx : cw = 0x30000000 ↔ i = .tx := eq_encode_iff (j := .tx) hdecode rfl
      have hrx : cw = 0x31000000 ↔ i = .rx := eq_encode_iff (j := .rx) hdecode rfl
      have hhsk : cw = 0x32000000 ↔ i = .hsk := eq_encode_iff (j := .hsk) hdecode rfl
      refine ⟨_, hstep, hscript, rfl, rfl, hkeeps u, ?_, ?_⟩
      · simpa only [State.applyReset_txlog, bytesSent, apply_ite (min k), Nat.min_zero, htx] using htxlog
      · simpa only [State.applyReset_rxq, bytesTaken, apply_ite (min k), Nat.min_zero, hrx, hhsk] using hrxq
    | error e =>
      have htx : cw ≠ 0x30000000 := ne_encode_of_error (j := .tx) hdecode rfl
      have hrx : cw ≠ 0x31000000 := ne_encode_of_error (j := .rx) hdecode rfl
      have hhsk : cw ≠ 0x32000000 := ne_encode_of_error (j := .hsk) hdecode rfl
      have hstep := step_resetDuring_of_ready hinbox hwaiting
      rw [presentAndReset, hdecode] at hstep
      refine ⟨_, hstep, rfl, rfl, rfl, hkeeps _, ?_, ?_⟩
      · rw [if_neg htx]
        exact (List.append_nil _).symm
      · rw [if_neg fun hword => hrx hword.1, if_neg fun hword => hhsk hword.1]
        rfl

end Sys2Proof.Machine
end
